-- ==== Sys2Proof/Word.lean ====
section
/-!
DEFINITION. The two word sizes of the FRA: a byte (R8, an operand, a register, a stream byte) and a 16-bit
operation or response word (R59, R60).
-/

namespace Sys2Proof

/-- `byte` of R8: an unsigned 8-bit value. -/
abbrev Byte := BitVec 8

/-- `u16` of R8: an operation word (R59), a response word (R60) or the checksum accumulator (R34). -/
abbrev Word := BitVec 16

end Sys2Proof
end

