-- ==== Sys2Proof/Config.lean ====
section
/-!
DEFINITION. The configuration parameters of R5 as a type. Their values, the defaults of R5, are in
Sys2Proof/Machine/Params.lean. No op changes a parameter.
-/

namespace Sys2Proof.Config

/-- The parameters of R5 that have a default. -/
structure Params where
  /-- G_SYNC, the gyro sync byte. -/
  gSync : Byte
  /-- G_FRAME_LEN, the gyro frame length in bytes. -/
  gFrameLen : Nat
  /-- G_ST_ACC, sub-type acceleration. -/
  gStAcc : Byte
  /-- G_ST_ARATE, sub-type angular rate. -/
  gStArate : Byte
  /-- G_ST_ANGLE, sub-type angle. -/
  gStAngle : Byte
  /-- G_PAYLOAD_LO, the first byte offset copied into a decoded structure. -/
  gPayloadLo : Nat
  /-- G_PAYLOAD_HI, the last byte offset copied into a decoded structure. -/
  gPayloadHi : Nat
  /-- S_SYNC, the servo header byte. -/
  sSync : Byte
  /-- S_ID_MAX, the largest accepted ID. -/
  sIdMax : Byte
  /-- S_ID_BCAST, the broadcast ID; it has no effect on parsing. -/
  sIdBcast : Byte
  /-- S_LEN_MIN, the smallest accepted length byte. -/
  sLenMin : Byte
  /-- S_LEN_MAX, the largest accepted length byte. -/
  sLenMax : Byte
  /-- S_CMD_MIN, the smallest accepted command byte. -/
  sCmdMin : Byte
  /-- S_CMD_MAX, the largest accepted command byte. -/
  sCmdMax : Byte
  /-- S_NPARAM_MAX, the size of the parameter register file. -/
  sNparamMax : Nat
  /-- CK_ACC_WIDTH, the width in bits of the checksum accumulation. -/
  ckAccWidth : Nat
  /-- T_READ_BUDGET, the retry budget of a consumer; an input of no op rule (R133). -/
  tReadBudget : Nat
  deriving DecidableEq, Repr

/-- The size of a decoded structure: the bytes from G_PAYLOAD_LO to G_PAYLOAD_HI, both included (R5, R31). -/
abbrev Params.payloadLen (p : Params) : Nat := p.gPayloadHi + 1 - p.gPayloadLo

/-- The values fit together: S_NPARAM_MAX = S_LEN_MAX - 3 and no length is below 3 (R5, R6), the payload lies inside
the gyro frame, the accumulator has the 8 bits the checksum takes (R80), and the counters are wide enough: GIDX for
G_FRAME_LEN (R29, R89), SPCNT for S_NPARAM_MAX (R21), SBCNT for the bytes before the checksum and it (R20, R105). -/
def Params.coherent (p : Params) : Bool :=
  decide (p.sLenMax.toNat = p.sNparamMax + 3) && decide (3 ≤ p.sLenMin.toNat) &&
    decide (p.gPayloadLo ≤ p.gPayloadHi) && decide (p.gPayloadHi < p.gFrameLen) && decide (8 ≤ p.ckAccWidth) &&
    decide (p.gFrameLen < 2 ^ 4) && decide (p.sNparamMax < 2 ^ 3) && decide (p.sLenMax.toNat + 3 < 2 ^ 4)

/-- T_GUARD, the period of the guard timer outside the FRA (R131): OPEN in R5, so it has no value here, and
no op rule reads it (log entry 10). -/
opaque tGuard : Nat

end Sys2Proof.Config
end

