-- ==== Sys2Proof/Machine/Params.lean ====
section
/-!
DEFINITION. The parameters of R5 at their default values, at which the spec is normative. A model for a corrected
literal changes this one definition (D24, log entry 9): the sizes of the registers follow it. It is an abbrev so that
a size taken from it and the same number written out are one type.
-/

namespace Sys2Proof.Machine

/-- The defaults of R5. -/
abbrev params : Config.Params :=
  { gSync := 0x55#8, gFrameLen := 11, gStAcc := 0x51#8, gStArate := 0x52#8, gStAngle := 0x53#8, gPayloadLo := 2,
    gPayloadHi := 9, sSync := 0x55#8, sIdMax := 254#8, sIdBcast := 254#8, sLenMin := 3#8, sLenMax := 7#8,
    sCmdMin := 1#8, sCmdMax := 0x36#8, sNparamMax := 4, ckAccWidth := 16, tReadBudget := 500 }

end Sys2Proof.Machine
end

