-- ==== Sys2Proof/Syntax.lean ====
section
/-!
DEFINITION. The nine ops of the opcode map (R62), the status codes and answers of the response word (R60, R61),
the assembler's pseudo-ops (R68) and a servo frame as a command builder sees it (R72, R77).
-/

namespace Sys2Proof

/-- One op of R62. The operand byte is used as it stands (R63). -/
inductive Instr where
  /-- GFEED b (R88): offer one received gyroscope byte. -/
  | gfeed (b : Byte)
  /-- SFEED b (R98): offer one received servo-bus byte. -/
  | sfeed (b : Byte)
  /-- SPOLL (R111): read and clear the frame-ready latch. -/
  | spoll
  /-- STAKE (R112): take the ready frame and validate it. -/
  | stake
  /-- SCLR (R113): reset the servo parser's transient state. -/
  | sclr
  /-- CKCLR (R83): clear the checksum accumulator. -/
  | ckclr
  /-- CKACC b (R84): add one byte to the checksum accumulator. -/
  | ckacc (b : Byte)
  /-- CKVAL b (R85): compare a checksum byte with the generated one. -/
  | ckval (b : Byte)
  /-- RREAD a (R118): read one byte of the register map. -/
  | rread (a : Byte)
  deriving DecidableEq, Repr

/-- The status names of R61. -/
inductive Status where
  | ok
  | incomplete
  | complete
  | rejected
  | illegal
  deriving DecidableEq, Repr

/-- What `respond(status, data)` is given (R9): the status and the data byte of a response. -/
structure Answer where
  status : Status
  data : Byte
  deriving DecidableEq, Repr

/-- The pseudo-ops of R68. -/
inductive Pseudo where
  /-- `SBYTES b0, ..., bn`. -/
  | sbytes (bs : List Byte)
  /-- `GBYTES b0, ..., bn`. -/
  | gbytes (bs : List Byte)
  /-- `SFRAME id, cmd, p0, ..., pN-1`. -/
  | sframe (id cmd : Byte) (ps : List Byte)
  /-- `GFRAME st, d0, ..., d7, x`. -/
  | gframe (st : Byte) (ds : List Byte) (x : Byte)
  /-- `CKGEN b0, ..., bn`. -/
  | ckgen (bs : List Byte)
  deriving DecidableEq, Repr

/-- The fields of a servo frame that its sender chooses (R72, R77); the length byte and the checksum byte follow
from them. -/
structure ServoFrame where
  id : Byte
  cmd : Byte
  ps : List Byte
  deriving DecidableEq, Repr

end Sys2Proof
end

