-- ==== Sys2Proof/WellFormed.lean ====
section
/-!
DEFINITION. What a legal op word is, written from the ranges R64 and R65 list (not from the decoder), and when a
pseudo-op (R68) and a servo frame (R72) are well formed. An `Instr` needs no check: its operand is a byte by its
type, and every byte is an operand (R63), so every term of `Instr` is well formed.
-/

namespace Sys2Proof

/-- The OPC values R65 calls reserved: 0x00 to 0x0F, 0x11 to 0x1F, 0x24 to 0x2F, 0x33 to 0x3F, 0x41 to 0xFF. -/
def reservedOpcode (opc : Byte) : Bool :=
  decide (opc ≤ 0x0F#8) || (decide (0x11#8 ≤ opc) && decide (opc ≤ 0x1F#8)) ||
    (decide (0x24#8 ≤ opc) && decide (opc ≤ 0x2F#8)) || (decide (0x33#8 ≤ opc) && decide (opc ≤ 0x3F#8)) ||
    decide (0x41#8 ≤ opc)

/-- The OPC values of the ops without an operand (R64): SPOLL, STAKE, SCLR, CKCLR. -/
def operandless (opc : Byte) : Bool :=
  opc == 0x21#8 || opc == 0x22#8 || opc == 0x23#8 || opc == 0x30#8

/-- An op word with these two fields is legal (R64, R65). -/
def legalOpWord (opc opnd : Byte) : Bool :=
  !reservedOpcode opc && (!operandless opc || opnd == 0x00#8)

/-- A pseudo-op that R68 gives an expansion: at least one byte where `b0, ..., bn` are listed, at most four
parameters in SFRAME, exactly eight payload bytes in GFRAME. -/
def Pseudo.wellFormed : Pseudo → Bool
  | .sbytes bs => !bs.isEmpty
  | .gbytes bs => !bs.isEmpty
  | .sframe _ _ ps => decide (ps.length ≤ 4)
  | .gframe _ ds _ => decide (ds.length = 8)
  | .ckgen bs => !bs.isEmpty

/-- A well-formed servo frame (R72): ID at most S_ID_MAX = 254 (R74), at most S_NPARAM_MAX = 4 parameters so that
the length byte is 3 to 7 (R73), command S_CMD_MIN = 1 to S_CMD_MAX = 0x36 (R75). -/
def ServoFrame.wellFormed (f : ServoFrame) : Bool :=
  decide (f.id ≤ Machine.params.sIdMax) && decide (f.ps.length ≤ Machine.params.sNparamMax) &&
    decide (Machine.params.sCmdMin ≤ f.cmd) && decide (f.cmd ≤ Machine.params.sCmdMax)

end Sys2Proof
end

