-- ==== Sys2Proof/Decode.lean ====
section
/-!
DEFINITION. Decoding an op word (R59, R62 to R65): total on every 16-bit word, refusing by name; the encoder beside
it, written from the same opcode map; and the host's `decodeTableWord`.
-/

namespace Sys2Proof

/-- Why an op word is illegal (R65). -/
inductive Illegal where
  /-- OPC is in none of R62's rows. -/
  | reservedOpc
  /-- An op without an operand has OPND other than 0x00 (R64). -/
  | operandNotZero
  deriving DecidableEq, Repr

/-- What one op word stands for. -/
inductive Decoded where
  | op (i : Instr)
  | illegal (why : Illegal)
  deriving DecidableEq, Repr

/-- OPC, bits 15:8 (R59). -/
def opcOf (w : Word) : Byte := w.extractLsb' 8 8

/-- OPND, bits 7:0 (R59). -/
def opndOf (w : Word) : Byte := w.extractLsb' 0 8

/-- The op word `{opc, opnd}` (R59). -/
def opWord (opc opnd : Byte) : Word := opc ++ opnd

/-- An op without an operand: it is the op only with OPND = 0x00 (R64). -/
def decodeBare (i : Instr) (opnd : Byte) : Decoded :=
  if opnd = 0x00#8 then .op i else .illegal .operandNotZero

/-- The opcode map of R62, row by row. -/
def decode (w : Word) : Decoded :=
  let opc := opcOf w
  let opnd := opndOf w
  if opc = 0x10#8 then .op (.gfeed opnd)
  else if opc = 0x20#8 then .op (.sfeed opnd)
  else if opc = 0x21#8 then decodeBare .spoll opnd
  else if opc = 0x22#8 then decodeBare .stake opnd
  else if opc = 0x23#8 then decodeBare .sclr opnd
  else if opc = 0x30#8 then decodeBare .ckclr opnd
  else if opc = 0x31#8 then .op (.ckacc opnd)
  else if opc = 0x32#8 then .op (.ckval opnd)
  else if opc = 0x40#8 then .op (.rread opnd)
  else .illegal .reservedOpc

/-- The OPC of an op (R62). -/
def Instr.opc : Instr → Byte
  | .gfeed _ => 0x10#8
  | .sfeed _ => 0x20#8
  | .spoll => 0x21#8
  | .stake => 0x22#8
  | .sclr => 0x23#8
  | .ckclr => 0x30#8
  | .ckacc _ => 0x31#8
  | .ckval _ => 0x32#8
  | .rread _ => 0x40#8

/-- The OPND of an op (R62, R63): its operand byte, or 0x00. -/
def Instr.opnd : Instr → Byte
  | .gfeed b => b
  | .sfeed b => b
  | .spoll => 0x00#8
  | .stake => 0x00#8
  | .sclr => 0x00#8
  | .ckclr => 0x00#8
  | .ckacc b => b
  | .ckval b => b
  | .rread a => a

/-- The op word of an op (R59). -/
def encode (i : Instr) : Word := opWord i.opc i.opnd

/-- The op a decoded word stands for, if it is legal. -/
def Decoded.toInstr? : Decoded → Option Instr
  | .op i => some i
  | .illegal _ => none

/-- The op word the host's table numbers: bits above `nbits` are 0, and an op word has 16 bits (R59). -/
def tableWord (nbits w : Nat) : Word := BitVec.ofNat 16 (w % 2 ^ nbits)

/-- The op the decoder reads from a word numbered as spec/opcode_table.json numbers it. -/
def decodeTableWord (nbits w : Nat) : Option Instr := (decode (tableWord nbits w)).toInstr?

end Sys2Proof
end

