-- ==== Sys2Proof/Machine/State.lean ====
section
/-!
DEFINITION. The state of the FRA: the registers of R17, one structure per unit (the units share no register), and
the model's own fields for the world around it, the agents' lines, the schedule and the last response.
Every field is plain data. State.reset is R40.
-/

namespace Sys2Proof.Machine

/-- Why a step faults. The FRA itself has no traps (R120): each fault is raised only in a state that no run
reaches, where 93_implementation_defined.md asks a model to fault. All are safe. -/
inductive Fault where
  /-- SFEED finds SSTATE = 7, DONE (R98, I5; log entry 5). Safe: the model stops where the spec gives no behaviour. -/
  | sstateDone
  /-- SFEED finds SHCNT, SBCNT or SPCNT outside R28's row for SSTATE (I6; log entry 6). Safe, for the same reason. -/
  | countersDisagree
  /-- SFEED past READ_LENGTH, or STAKE with READY = 1, finds RX_LEN outside [3, 7] (R87, I1; log entry 7).
  Safe, for the same reason. -/
  | lengthOutOfRange
  /-- GFEED finds GIDX above 10 (R90, I6; log entry 8). Safe, for the same reason. -/
  | gidxOutOfRange
  deriving DecidableEq, Repr

/-- Why a step is refused. -/
inductive Refusal where
  /-- An arm of exec that has no meaning yet. No arm raises it now. Safe: the model stops. -/
  | notModelled (mnemonic : String)
  deriving DecidableEq, Repr

/-- SSTATE (R18), in the order of its codes 0 to 7. -/
inductive SState where
  | awaitHeader1
  | awaitHeader2
  | readId
  | readLength
  | readCommand
  | readParams
  | readChecksum
  | done
  deriving DecidableEq, Repr

/-- The servo frame parser's registers (R18 to R27). -/
structure Sfp where
  /-- SSTATE (R18). -/
  sstate : SState
  /-- SHCNT, the header count (R19). -/
  shcnt : BitVec 2
  /-- SBCNT, the byte count (R20). -/
  sbcnt : BitVec 4
  /-- SPCNT, the parameter count (R21). -/
  spcnt : BitVec 3
  /-- RX_ID (R22). -/
  rxId : Byte
  /-- RX_LEN (R22). -/
  rxLen : Byte
  /-- RX_CMD (R22). -/
  rxCmd : Byte
  /-- RX_P[0..3] (R23), S_NPARAM_MAX registers (R5). -/
  rxP : Vector Byte params.sNparamMax
  /-- RX_CKS (R24). -/
  rxCks : Byte
  /-- RX_CKCALC (R25). -/
  rxCkcalc : Byte
  /-- READY, the one-shot frame-ready latch (R26). -/
  ready : Bool
  /-- CKOK, the verdict at the last completion (R27). -/
  ckok : Bool
  deriving DecidableEq, Repr

/-- The gyro frame accumulator's registers (R29 to R31). -/
structure Gfa where
  /-- GIDX, the buffer index (R29). -/
  gidx : BitVec 4
  /-- GBUF[0..10] (R30), G_FRAME_LEN registers (D27). -/
  gbuf : Vector Byte params.gFrameLen
  /-- ACC[0..7] (R31). -/
  acc : Vector Byte params.payloadLen
  /-- ARATE[0..7] (R31). -/
  arate : Vector Byte params.payloadLen
  /-- ANGLE[0..7] (R31). -/
  angle : Vector Byte params.payloadLen
  deriving DecidableEq, Repr

/-- The checksum unit's register (R34). -/
structure Cku where
  /-- CKACC (R34), CK_ACC_WIDTH bits. -/
  ckacc : BitVec params.ckAccWidth
  deriving DecidableEq, Repr

/-- The agents that issue ops (R11). The fifth agent, RST, issues no op: it is the event `Event.reset`. -/
inductive Agent where
  | rxg
  | rxs
  | con
  | grd
  deriving DecidableEq, Repr

/-- For each agent, the op words it has issued that are not yet performed, oldest first (R54). The model's own. -/
structure Lines where
  rxg : List Word
  rxs : List Word
  con : List Word
  grd : List Word
  deriving DecidableEq, Repr

/-- What happens next at the FRA's boundary. The model's own. -/
inductive Event where
  /-- The FRA performs the oldest op of this agent (R53, R54). -/
  | turn (a : Agent)
  /-- RST asserts reset between two ops (R138, R139). Each flag says that the byte this receive line was
  delivering is not fed at all (R139, log entry 12); otherwise it is fed after reset. -/
  | reset (loseRxg loseRxs : Bool)
  deriving DecidableEq, Repr

/-- The FRA and its boundary. -/
structure State where
  /-- The servo frame parser. -/
  sfp : Sfp
  /-- The gyro frame accumulator. -/
  gfa : Gfa
  /-- The checksum unit. -/
  cku : Cku
  /-- The agents' undelivered ops (the model's own). -/
  lines : Lines
  /-- The order in which the agents are served (the model's own). -/
  schedule : List Event
  /-- The agent whose op the last step performed, to whom the response goes (the model's own). -/
  issuer : Option Agent
  /-- The response word the last step returned (R60). An output: no op reads it (R37, R39). -/
  response : Option Word
  deriving DecidableEq, Repr

/-- The servo frame parser after reset (R40). -/
def Sfp.reset : Sfp :=
  { sstate := .awaitHeader1, shcnt := 0#2, sbcnt := 0#4, spcnt := 0#3, rxId := 0x00#8, rxLen := 0x00#8,
    rxCmd := 0x00#8, rxP := Vector.replicate params.sNparamMax 0x00#8, rxCks := 0x00#8, rxCkcalc := 0x00#8, ready := false,
    ckok := false }

/-- The gyro frame accumulator after reset (R40). -/
def Gfa.reset : Gfa :=
  { gidx := 0#4, gbuf := Vector.replicate params.gFrameLen 0x00#8,
    acc := Vector.replicate params.payloadLen 0x00#8, arate := Vector.replicate params.payloadLen 0x00#8,
    angle := Vector.replicate params.payloadLen 0x00#8 }

/-- The checksum unit after reset (R40). -/
def Cku.reset : Cku := { ckacc := 0#params.ckAccWidth }

/-- The machine right after reset: every register at R40's value, and nothing issued yet (DESIGN CHOICE, log
entries 2 and 4). -/
def State.reset : State :=
  { sfp := Sfp.reset, gfa := Gfa.reset, cku := Cku.reset, lines := ⟨[], [], [], []⟩, schedule := [],
    issuer := none, response := none }

end Sys2Proof.Machine
end

