-- ==== Sys2Proof/Machine/Ops.lean ====
section
/-!
DEFINITION. The shared operations: building a response (R60), the checksum function (R80, R81), the lines and the
schedule, and what reset does (R138). The FRA has no trap entry and no trap return (R120, R127, R128; log entry 17), so there is
no operation for them: an error outcome is an answer like any other.
-/

namespace Sys2Proof.Machine

/-! ## Responses -/

/-- The status code RSTAT (R61). -/
def statusCode : Status → BitVec 4
  | .ok => 0x0#4
  | .incomplete => 0x1#4
  | .complete => 0x2#4
  | .rejected => 0x3#4
  | .illegal => 0xF#4

/-- `respond(s, d)` = `{0b0000, s[3:0], d[7:0]}` (R60). -/
def respond (st : Status) (d : Byte) : Word := 0#4 ++ statusCode st ++ d

/-- End an op with this answer: the response word goes to the output (R9, R60). -/
def State.answer (s : State) (a : Answer) : State :=
  { s with response := some (respond a.status a.data) }

/-- End an op of the servo frame parser: its registers and the answer. -/
def State.finishSfp (s : State) (r : Sfp × Answer) : State :=
  State.answer { s with sfp := r.1 } r.2

/-- End an op of the gyro frame accumulator: its registers and the answer. -/
def State.finishGfa (s : State) (r : Gfa × Answer) : State :=
  State.answer { s with gfa := r.1 } r.2

/-- End an op of the checksum unit: its register and the answer. -/
def State.finishCku (s : State) (r : Cku × Answer) : State :=
  State.answer { s with cku := r.1 } r.2

/-- A step that performs no op returns no response. -/
def State.quiet (s : State) : State := { s with issuer := none, response := none }

/-! ## The checksum function -/

/-- The sum of a list of bytes as an unbounded number (R8, R80). -/
def byteSum (bs : List Byte) : Nat := (bs.map BitVec.toNat).sum

/-- CKS (R80): truncate the sum to the accumulation width, invert, keep the low 8 bits. -/
def cks (bs : List Byte) : Byte := (~~~(BitVec.ofNat params.ckAccWidth (byteSum bs))).extractLsb' 0 8

/-- The checksum of a value of the streaming accumulator, `(~CKACC)[7:0]` (R34, R85). -/
def ckres (acc : BitVec params.ckAccWidth) : Byte := (~~~acc).extractLsb' 0 8

/-- The bytes a frame's checksum covers, from the frame registers: ID, L, CMD and the L - 3 parameters (R81). -/
def Sfp.fields (p : Sfp) : List Byte := p.rxId :: p.rxLen :: p.rxCmd :: p.rxP.toList.take (p.rxLen.toNat - 3)

/-! ## The servo parser's transient state -/

/-- Reset the transient state SSTATE, SHCNT, SBCNT, SPCNT (R105, R106, R113, R141). -/
def Sfp.clearTransient (p : Sfp) : Sfp :=
  { p with sstate := .awaitHeader1, shcnt := 0#2, sbcnt := 0#4, spcnt := 0#3 }

/-- ABORT(c) (R106). -/
def Sfp.abort (p : Sfp) (c : Byte) : Sfp × Answer := (p.clearTransient, ⟨.rejected, c⟩)

/-! ## Lines, schedule and reset -/

/-- The undelivered ops of one agent. -/
def lineOf (l : Lines) : Agent → List Word
  | .rxg => l.rxg
  | .rxs => l.rxs
  | .con => l.con
  | .grd => l.grd

/-- Replace the undelivered ops of one agent. -/
def setLine (l : Lines) (ws : List Word) : Agent → Lines
  | .rxg => { l with rxg := ws }
  | .rxs => { l with rxs := ws }
  | .con => { l with con := ws }
  | .grd => { l with grd := ws }

/-- The byte a receive line was delivering when reset was asserted is not fed, if the flag says so (R139). -/
def loseHead (lose : Bool) (ws : List Word) : List Word := if lose then ws.tail else ws

/-- Reset (R138): every register of R17 at R40's value in one step. It is not an op and returns no response. -/
def State.resetRegisters (s : State) : State :=
  State.quiet { s with sfp := Sfp.reset, gfa := Gfa.reset, cku := Cku.reset }

/-- Put an op word where the next step performs it: the consumer issues it and is served next (log entry 3). -/
def State.placeOp (s : State) (w : Word) : State :=
  { s with lines := { s.lines with con := w :: s.lines.con }, schedule := .turn .con :: s.schedule }

end Sys2Proof.Machine
end

