-- ==== Sys2Proof/Machine/Flags.lean ====
section
/-!
DEFINITION. The flags READY and CKOK (R37), the checksum verdict that sets CKOK, and the status view SSTAT (R38).
-/

namespace Sys2Proof.Machine

/-- The code of SSTATE (R18). -/
def sstateCode : SState → BitVec 3
  | .awaitHeader1 => 0#3
  | .awaitHeader2 => 1#3
  | .readId => 2#3
  | .readLength => 3#3
  | .readCommand => 4#3
  | .readParams => 5#3
  | .readChecksum => 6#3
  | .done => 7#3

/-- A 1-bit flag as the bit the register map shows. -/
def flagBit (b : Bool) : BitVec 1 := BitVec.ofBool b

/-- A truth value as the data byte 0x01 or 0x00 of a response (R85, R111). -/
def flagByte (b : Bool) : Byte := if b then 0x01#8 else 0x00#8

/-- The validator (R82): the checksum over the frame registers equals the received checksum byte. -/
def Sfp.valid (p : Sfp) : Bool := cks p.fields == p.rxCks

/-- READY <- 0 (R111, R112). -/
def Sfp.clearReady (p : Sfp) : Sfp := { p with ready := false }

/-- What completion records (R105): RX_CKCALC, CKOK <- (RX_CKS == RX_CKCALC), READY <- 1. -/
def Sfp.recordVerdict (p : Sfp) : Sfp :=
  let computed := cks p.fields
  { p with rxCkcalc := computed, ckok := p.rxCks == computed, ready := true }

/-- SSTAT (R38): `{0, SSTATE[2:0], 0, 0, CKOK, READY}`. -/
def Sfp.sstat (p : Sfp) : Byte :=
  0#1 ++ sstateCode p.sstate ++ 0#2 ++ flagBit p.ckok ++ flagBit p.ready

end Sys2Proof.Machine
end

