-- ==== Sys2Proof/Machine/Operands.lean ====
section
/-!
DEFINITION. The one operand form that names something: the register-map address of RREAD (R63). The register map
(R42, R43, R44; log entry 11) and the reading of multi-byte values out of the decoded structures (R32, R47).
-/

namespace Sys2Proof.Machine

/-- Byte `k` of a register file; the callers ask only for a `k` inside it, at the sizes the map of R42 is made for. -/
def byteAt {n : Nat} (v : Vector Byte n) (k : Nat) : Byte := v.toList.getD k 0x00#8

/-- The register map (R42): the byte a mapped address reads, `none` for an unmapped one (R44). -/
def regMap (s : State) (a : Byte) : Option Byte :=
  let k := a.toNat
  if k = 0x00 then some s.sfp.sstat
  else if k = 0x01 then some (s.sfp.shcnt.setWidth 8)
  else if k = 0x02 then some (s.sfp.sbcnt.setWidth 8)
  else if k = 0x03 then some (s.sfp.spcnt.setWidth 8)
  else if k = 0x04 then some s.sfp.rxId
  else if k = 0x05 then some s.sfp.rxLen
  else if k = 0x06 then some s.sfp.rxCmd
  else if 0x07 ≤ k ∧ k ≤ 0x0A then some (byteAt s.sfp.rxP (k - 0x07))
  else if k = 0x0B then some s.sfp.rxCks
  else if k = 0x0C then some s.sfp.rxCkcalc
  else if k = 0x10 then some (s.gfa.gidx.setWidth 8)
  else if 0x20 ≤ k ∧ k ≤ 0x27 then some (byteAt s.gfa.acc (k - 0x20))
  else if 0x28 ≤ k ∧ k ≤ 0x2F then some (byteAt s.gfa.arate (k - 0x28))
  else if 0x30 ≤ k ∧ k ≤ 0x37 then some (byteAt s.gfa.angle (k - 0x30))
  else if 0x40 ≤ k ∧ k ≤ 0x4A then some (byteAt s.gfa.gbuf (k - 0x40))
  else if k = 0x50 then some (s.cku.ckacc.extractLsb' 0 8)
  else if k = 0x51 then some (s.cku.ckacc.extractLsb' 8 8)
  else if k = 0x52 then some (ckres s.cku.ckacc)
  else none

/-- Component `c` (0, 1, 2 for x, y, z) of a decoded structure (R32): little-endian, read as signed with
`BitVec.toInt`. -/
def component {n : Nat} (v : Vector Byte n) (c : Fin 3) : Word :=
  byteAt v (2 * c.val + 1) ++ byteAt v (2 * c.val)

/-- The reserved 16-bit field of a decoded structure (R32). -/
def reservedField {n : Nat} (v : Vector Byte n) : Word := byteAt v 7 ++ byteAt v 6

end Sys2Proof.Machine
end

