-- ==== Sys2Proof/Machine/Access.lean ====
section
/-!
DEFINITION. Register access: the op RREAD (R118).
-/

namespace Sys2Proof.Machine

/-- RREAD a (R118): a mapped address answers OK and its byte, an unmapped one ILLEGAL and 0x00. -/
def execRread (a : Byte) (s : State) : Host.Outcome State Fault Refusal :=
  match regMap s a with
  | none => .next (s.answer ⟨.illegal, 0x00#8⟩)
  | some d => .next (s.answer ⟨.ok, d⟩)

end Sys2Proof.Machine
end

