-- ==== Sys2Proof/Machine/Checksum.lean ====
section
/-!
DEFINITION. The checksum unit's ops CKCLR (R83), CKACC (R84) and CKVAL (R85).
-/

namespace Sys2Proof.Machine

/-- CKCLR (R83). -/
def execCkclr (s : State) : Host.Outcome State Fault Refusal :=
  .next (s.finishCku ({ ckacc := 0#params.ckAccWidth }, ⟨.ok, 0x00#8⟩))

/-- CKACC b (R84): the addition wraps at 2^CK_ACC_WIDTH = 2^16. -/
def execCkacc (b : Byte) (s : State) : Host.Outcome State Fault Refusal :=
  .next (s.finishCku ({ ckacc := s.cku.ckacc + b.setWidth params.ckAccWidth }, ⟨.ok, 0x00#8⟩))

/-- CKVAL b (R85). -/
def execCkval (b : Byte) (s : State) : Host.Outcome State Fault Refusal :=
  .next (s.answer ⟨.ok, flagByte (ckres s.cku.ckacc == b)⟩)

end Sys2Proof.Machine
end

