-- ==== Sys2Proof/Machine/Gyro.lean ====
section
/-!
DEFINITION. The gyro frame accumulator's op GFEED (R88, R89).
-/

namespace Sys2Proof.Machine

/-- `GBUF[GIDX] <- b; GIDX <- GIDX + 1` (R89, R90): every byte is stored before any check. -/
def Gfa.store (g : Gfa) (b : Byte) : Gfa :=
  { g with gbuf := g.gbuf.setIfInBounds g.gidx.toNat b, gidx := g.gidx + 1#4 }

/-- The payload GBUF[G_PAYLOAD_LO..G_PAYLOAD_HI] = GBUF[2..9] in wire order (R71, R93). -/
def Gfa.payload (g : Gfa) : Vector Byte params.payloadLen :=
  Vector.ofFn fun k => byteAt g.gbuf (params.gPayloadLo + k.val)

/-- Dispatch a whole frame by its sub-type (R93, R94); GIDX is reset whatever the sub-type. -/
def Gfa.dispatch (g : Gfa) : Gfa × Answer :=
  let st := byteAt g.gbuf 1
  let g := { g with gidx := 0#4 }
  if st = params.gStAcc then ({ g with acc := g.payload }, ⟨.complete, st⟩)
  else if st = params.gStArate then ({ g with arate := g.payload }, ⟨.complete, st⟩)
  else if st = params.gStAngle then ({ g with angle := g.payload }, ⟨.complete, st⟩)
  else (g, ⟨.rejected, 0x02#8⟩)

/-- GFEED's pseudocode (R89): store, check the byte at position 0, count, dispatch. -/
def Gfa.feed (g : Gfa) (b : Byte) : Gfa × Answer :=
  let g := g.store b
  if byteAt g.gbuf 0 ≠ params.gSync then ({ g with gidx := 0#4 }, ⟨.rejected, 0x01#8⟩)
  else if g.gidx.toNat < params.gFrameLen then (g, ⟨.incomplete, g.gidx.setWidth 8⟩)
  else g.dispatch

/-- GFEED b (R88). GIDX above 10 is a state no run reaches (R90, I6). -/
def execGfeed (b : Byte) (s : State) : Host.Outcome State Fault Refusal :=
  if params.gFrameLen ≤ s.gfa.gidx.toNat then .fault .gidxOutOfRange
  else .next (s.finishGfa (s.gfa.feed b))

end Sys2Proof.Machine
end

