-- ==== Sys2Proof/Machine/Servo.lean ====
section
/-!
DEFINITION. The servo frame parser's ops: SFEED with one arm per SSTATE value (R98 to R106), SPOLL (R111), STAKE
(R112) and SCLR (R113).
-/

namespace Sys2Proof.Machine

/-- RX_LEN is an accepted length (R73). -/
def Sfp.lenLegal (p : Sfp) : Bool := decide (params.sLenMin ≤ p.rxLen) && decide (p.rxLen ≤ params.sLenMax)

/-- SSTATE says that a length byte of the current frame has been accepted (R28). -/
def Sfp.lenAccepted (p : Sfp) : Bool :=
  match p.sstate with
  | .readCommand | .readParams | .readChecksum => true
  | .awaitHeader1 | .awaitHeader2 | .readId | .readLength | .done => false

/-- SHCNT, SBCNT and SPCNT are what R28's row for SSTATE says. -/
def Sfp.countersAgree (p : Sfp) : Bool :=
  match p.sstate with
  | .awaitHeader1 => p.shcnt == 0#2 && p.sbcnt == 0#4 && p.spcnt == 0#3
  | .awaitHeader2 => p.shcnt == 1#2 && p.sbcnt == 0#4 && p.spcnt == 0#3
  | .readId => p.shcnt == 2#2 && p.sbcnt == 2#4 && p.spcnt == 0#3
  | .readLength => p.shcnt == 2#2 && p.sbcnt == 3#4 && p.spcnt == 0#3
  | .readCommand => p.shcnt == 2#2 && p.sbcnt == 4#4 && p.spcnt == 0#3
  | .readParams =>
    p.shcnt == 2#2 && p.sbcnt.toNat == 5 + p.spcnt.toNat && decide (p.spcnt.toNat + 3 < p.rxLen.toNat)
  | .readChecksum =>
    p.shcnt == 2#2 && p.sbcnt.toNat == p.rxLen.toNat + 2 && p.spcnt.toNat + 3 == p.rxLen.toNat
  | .done => false

/-- The fault of SFEED in a state no run reaches (I1, I5, I6), if there is one. -/
def Sfp.feedFault (p : Sfp) : Option Fault :=
  if p.sstate = .done then some .sstateDone
  else if p.lenAccepted && !p.lenLegal then some .lengthOutOfRange
  else if !p.countersAgree then some .countersDisagree
  else none

/-- The answer while a frame is open or no header was seen. -/
def incomplete : Answer := ⟨.incomplete, 0x00#8⟩

/-- SFEED in AWAIT_HEADER1 (R99). -/
def Sfp.feedHeader1 (p : Sfp) (b : Byte) : Sfp × Answer :=
  if b = params.sSync then ({ p with sstate := .awaitHeader2, shcnt := 1#2 }, incomplete)
  else (p, incomplete)

/-- SFEED in AWAIT_HEADER2 (R100). -/
def Sfp.feedHeader2 (p : Sfp) (b : Byte) : Sfp × Answer :=
  if b = params.sSync then
    ({ p with sstate := .readId, shcnt := 2#2, sbcnt := 2#4, spcnt := 0#3 }, incomplete)
  else p.abort 0x04#8

/-- SFEED in READ_ID (R101). -/
def Sfp.feedId (p : Sfp) (b : Byte) : Sfp × Answer :=
  if b ≤ params.sIdMax then ({ p with rxId := b, sbcnt := 3#4, sstate := .readLength }, incomplete)
  else p.abort 0x01#8

/-- SFEED in READ_LENGTH (R102). -/
def Sfp.feedLength (p : Sfp) (b : Byte) : Sfp × Answer :=
  if params.sLenMin ≤ b ∧ b ≤ params.sLenMax then
    ({ p with rxLen := b, sbcnt := 4#4, sstate := .readCommand }, incomplete)
  else p.abort 0x02#8

/-- SFEED in READ_COMMAND (R103). -/
def Sfp.feedCommand (p : Sfp) (b : Byte) : Sfp × Answer :=
  if params.sCmdMin ≤ b ∧ b ≤ params.sCmdMax then
    ({ p with rxCmd := b, sbcnt := 5#4, spcnt := 0#3,
              sstate := if p.rxLen = 3#8 then .readChecksum else .readParams }, incomplete)
  else p.abort 0x03#8

/-- SFEED in READ_PARAMS (R104): the last parameter moves the parser on. -/
def Sfp.feedParam (p : Sfp) (b : Byte) : Sfp × Answer :=
  let n := p.spcnt + 1#3
  ({ p with rxP := p.rxP.setIfInBounds p.spcnt.toNat b, spcnt := n, sbcnt := p.sbcnt + 1#4,
            sstate := if n.toNat = p.rxLen.toNat - 3 then .readChecksum else .readParams }, incomplete)

/-- SFEED in READ_CHECKSUM (R105): completion, through DONE and back to AWAIT_HEADER1 in the one op. -/
def Sfp.feedChecksum (p : Sfp) (b : Byte) : Sfp × Answer :=
  let received := { p with rxCks := b, sbcnt := p.sbcnt + 1#4, sstate := .done }
  (received.recordVerdict.clearTransient, ⟨.complete, 0x00#8⟩)

/-- SFEED's case on SSTATE (R98). The arm of DONE is never taken: `feedFault` stops it first. -/
def Sfp.feed (p : Sfp) (b : Byte) : Sfp × Answer :=
  match p.sstate with
  | .awaitHeader1 => p.feedHeader1 b
  | .awaitHeader2 => p.feedHeader2 b
  | .readId => p.feedId b
  | .readLength => p.feedLength b
  | .readCommand => p.feedCommand b
  | .readParams => p.feedParam b
  | .readChecksum => p.feedChecksum b
  | .done => (p, incomplete)

/-- SFEED b (R98). -/
def execSfeed (b : Byte) (s : State) : Host.Outcome State Fault Refusal :=
  match s.sfp.feedFault with
  | some f => .fault f
  | none => .next (s.finishSfp (s.sfp.feed b))

/-- SPOLL (R111). -/
def execSpoll (s : State) : Host.Outcome State Fault Refusal :=
  .next (s.finishSfp (s.sfp.clearReady, ⟨.ok, flagByte s.sfp.ready⟩))

/-- STAKE (R112): Wait with READY = 0, else claim the latch and validate the frame registers as they are. -/
def execStake (s : State) : Host.Outcome State Fault Refusal :=
  if s.sfp.ready = false then .next (s.answer incomplete)
  else if s.sfp.lenLegal = false then .fault .lengthOutOfRange
  else .next (s.finishSfp (s.sfp.clearReady, ⟨if s.sfp.valid then .complete else .rejected, 0x00#8⟩))

/-- SCLR (R113). -/
def execSclr (s : State) : Host.Outcome State Fault Refusal :=
  .next (s.finishSfp (s.sfp.clearTransient, ⟨.ok, 0x00#8⟩))

end Sys2Proof.Machine
end

