-- ==== Sys2Proof/Machine/Dispatch.lean ====
section
/-!
DEFINITION. One arm per op of R62.
-/

namespace Sys2Proof.Machine

/-- The meaning of each op. -/
def exec (i : Instr) (s : State) : Host.Outcome State Fault Refusal :=
  match i with
  | .gfeed b => Sys2Proof.Machine.execGfeed b s
  | .sfeed b => Sys2Proof.Machine.execSfeed b s
  | .spoll => Sys2Proof.Machine.execSpoll s
  | .stake => Sys2Proof.Machine.execStake s
  | .sclr => Sys2Proof.Machine.execSclr s
  | .ckclr => Sys2Proof.Machine.execCkclr s
  | .ckacc b => Sys2Proof.Machine.execCkacc b s
  | .ckval b => Sys2Proof.Machine.execCkval b s
  | .rread a => Sys2Proof.Machine.execRread a s

end Sys2Proof.Machine
end

