-- ==== Sys2Proof/Machine/Cycle.lean ====
section
/-!
DEFINITION. One step of the FRA in its world: the next event of the schedule is an agent's turn, whose oldest op
word is decoded and performed (R10, R53, R54), or reset (R138, R139); with no event, nothing changes (R10).
-/

namespace Sys2Proof.Machine

/-- Perform one op word: its op's meaning, or, for an illegal word, only the response ILLEGAL (R65). -/
def perform (w : Word) (s : State) : Host.Outcome State Fault Refusal :=
  match decode w with
  | .op i => exec i s
  | .illegal _ => .next (s.answer ⟨.illegal, 0x00#8⟩)

/-- The state in which the oldest op of agent `a` is performed: the op has left the agent's line, `ws` remain. -/
def State.serving (s : State) (a : Agent) (ws : List Word) : State :=
  { s with lines := setLine s.lines ws a, issuer := some a, response := none }

/-- One agent's turn. A turn of an agent that has issued nothing is an idle step (log entry 3). -/
def serveTurn (a : Agent) (s : State) : Host.Outcome State Fault Refusal :=
  match lineOf s.lines a with
  | [] => .next s.quiet
  | w :: ws => perform w (s.serving a ws)

/-- Reset as RST asserts it (R138), with what becomes of the bytes in flight (R139). -/
def serveReset (loseRxg loseRxs : Bool) (s : State) : State :=
  State.resetRegisters
    { s with lines := { s.lines with rxg := loseHead loseRxg s.lines.rxg, rxs := loseHead loseRxs s.lines.rxs } }

/-- The next event of the schedule, or an idle step. -/
def cycle (s : State) : Host.Outcome State Fault Refusal :=
  match s.schedule with
  | [] => .next s.quiet
  | .turn a :: rest => serveTurn a { s with schedule := rest }
  | .reset g r :: rest => .next (serveReset g r { s with schedule := rest })

end Sys2Proof.Machine
end

