-- ==== Sys2Proof/Machine/Step.lean ====
section
/-!
DEFINITION. The step function, and where a test places the op that the next step performs.
-/

namespace Sys2Proof.Machine

/-- One step (R10, R53). -/
def step (s : State) : Host.Outcome State Fault Refusal := cycle s

/-- `s` with this op word issued by the consumer and the consumer served next: the very next step performs it
(log entry 3). -/
def State.withFetchWord (s : State) (nbits w : Nat) : State := s.placeOp (tableWord nbits w)

end Sys2Proof.Machine
end

