-- ==== Sys2Proof/Machine/Assembler.lean ====
section
/-!
DEFINITION. The pseudo-ops' expansions (R68), the servo frame a command builder sends (R72, R76, R77), and the
assembler's text (R67): one op a line, operands `0xNN` or decimal, comments after `;`.
-/

namespace Sys2Proof.Machine

/-! ## Frames and pseudo-ops -/

/-- L = N + 3 for N parameters (R73). -/
def ServoFrame.len (f : ServoFrame) : Byte := BitVec.ofNat 8 (f.ps.length + 3)

/-- The L bytes the checksum covers: ID, L, CMD and the parameters (R76, R81). -/
def ServoFrame.covered (f : ServoFrame) : List Byte := f.id :: ServoFrame.len f :: f.cmd :: f.ps

/-- The checksum byte at offset L + 2 (R76). -/
def ServoFrame.checksum (f : ServoFrame) : Byte := cks (ServoFrame.covered f)

/-- The whole frame on the wire, L + 3 bytes (R72). -/
def ServoFrame.bytes (f : ServoFrame) : List Byte :=
  params.sSync :: params.sSync :: (ServoFrame.covered f ++ [ServoFrame.checksum f])

/-- The expansion of a pseudo-op (R68). -/
def expand : Pseudo → List Instr
  | .sbytes bs => bs.map .sfeed
  | .gbytes bs => bs.map .gfeed
  | .sframe id cmd ps => (ServoFrame.bytes ⟨id, cmd, ps⟩).map .sfeed
  | .gframe st ds x => (params.gSync :: st :: (ds ++ [x])).map .gfeed
  | .ckgen bs => .ckclr :: (bs.map .ckacc ++ [.rread 0x52#8])

/-! ## Assembler text -/

/-- Why a line is not one of R67's. -/
inductive AsmError where
  | unknownMnemonic
  | badOperand
  | wrongOperandCount
  | illFormedPseudo
  deriving DecidableEq, Repr

/-- What one line assembles to. -/
inductive AsmLine where
  | ops (is : List Instr)
  | bad (why : AsmError)
  deriving DecidableEq, Repr

/-- A blank of assembler text. -/
def isBlank (c : Char) : Bool := c == ' ' || c == '\t'

/-- The value of a decimal digit. -/
def decDigit? (c : Char) : Option Nat :=
  if 48 ≤ c.toNat ∧ c.toNat ≤ 57 then some (c.toNat - 48) else none

/-- The value of a hexadecimal digit of either case (log entry 16). -/
def hexDigit? (c : Char) : Option Nat :=
  if 48 ≤ c.toNat ∧ c.toNat ≤ 57 then some (c.toNat - 48)
  else if 65 ≤ c.toNat ∧ c.toNat ≤ 70 then some (c.toNat - 55)
  else if 97 ≤ c.toNat ∧ c.toNat ≤ 102 then some (c.toNat - 87)
  else none

/-- Read decimal digits onto `acc`. -/
def decimal? (acc : Nat) : List Char → Option Nat
  | [] => some acc
  | c :: cs =>
    match decDigit? c with
    | some d => decimal? (acc * 10 + d) cs
    | none => none

/-- An operand: `0xNN`, or a decimal from 0 to 255 (R67). -/
def operand? (cs : List Char) : Option Byte :=
  match cs with
  | [] => none
  | ['0', 'x', h, l] =>
    match hexDigit? h, hexDigit? l with
    | some a, some b => some (BitVec.ofNat 8 (16 * a + b))
    | _, _ => none
  | cs =>
    match decimal? 0 cs with
    | some n => if n ≤ 255 then some (BitVec.ofNat 8 n) else none
    | none => none

/-- Drop the blanks at both ends. -/
def trimBlanks (cs : List Char) : List Char := ((cs.dropWhile isBlank).reverse.dropWhile isBlank).reverse

/-- Split at every comma. -/
def splitCommas : List Char → List (List Char)
  | [] => [[]]
  | c :: cs =>
    match splitCommas cs with
    | [] => [[]]
    | w :: ws => if c = ',' then [] :: w :: ws else (c :: w) :: ws

/-- Read every operand of a list, or none. -/
def operands? : List (List Char) → Option (List Byte)
  | [] => some []
  | w :: ws =>
    match operand? (trimBlanks w), operands? ws with
    | some b, some bs => some (b :: bs)
    | _, _ => none

/-- The operand field of a line: empty, or operands between commas. -/
def operandField? (cs : List Char) : Option (List Byte) :=
  if trimBlanks cs = [] then some [] else operands? (splitCommas cs)

/-- An op without an operand. -/
def asmBare (i : Instr) : List Byte → AsmLine
  | [] => .ops [i]
  | _ :: _ => .bad .wrongOperandCount

/-- An op with one operand. -/
def asmUnary (f : Byte → Instr) : List Byte → AsmLine
  | [b] => .ops [f b]
  | [] => .bad .wrongOperandCount
  | _ :: _ :: _ => .bad .wrongOperandCount

/-- A pseudo-op, expanded if it is well formed. -/
def asmPseudo (p : Pseudo) : AsmLine := if p.wellFormed then .ops (expand p) else .bad .illFormedPseudo

/-- SFRAME's operands: id, cmd, then the parameters. -/
def asmSframe : List Byte → AsmLine
  | id :: cmd :: ps => asmPseudo (.sframe id cmd ps)
  | _ => .bad .wrongOperandCount

/-- GFRAME's operands: st, eight payload bytes, x. -/
def asmGframe : List Byte → AsmLine
  | st :: rest =>
    match rest.reverse with
    | x :: ds => asmPseudo (.gframe st ds.reverse x)
    | [] => .bad .wrongOperandCount
  | [] => .bad .wrongOperandCount

/-- The op or pseudo-op of a mnemonic (R62, R68), given its operands. -/
def asmOp (m : List Char) (bs : List Byte) : AsmLine :=
  if m = ['G', 'F', 'E', 'E', 'D'] then asmUnary .gfeed bs
  else if m = ['S', 'F', 'E', 'E', 'D'] then asmUnary .sfeed bs
  else if m = ['S', 'P', 'O', 'L', 'L'] then asmBare .spoll bs
  else if m = ['S', 'T', 'A', 'K', 'E'] then asmBare .stake bs
  else if m = ['S', 'C', 'L', 'R'] then asmBare .sclr bs
  else if m = ['C', 'K', 'C', 'L', 'R'] then asmBare .ckclr bs
  else if m = ['C', 'K', 'A', 'C', 'C'] then asmUnary .ckacc bs
  else if m = ['C', 'K', 'V', 'A', 'L'] then asmUnary .ckval bs
  else if m = ['R', 'R', 'E', 'A', 'D'] then asmUnary .rread bs
  else if m = ['S', 'B', 'Y', 'T', 'E', 'S'] then asmPseudo (.sbytes bs)
  else if m = ['G', 'B', 'Y', 'T', 'E', 'S'] then asmPseudo (.gbytes bs)
  else if m = ['S', 'F', 'R', 'A', 'M', 'E'] then asmSframe bs
  else if m = ['G', 'F', 'R', 'A', 'M', 'E'] then asmGframe bs
  else if m = ['C', 'K', 'G', 'E', 'N'] then asmPseudo (.ckgen bs)
  else .bad .unknownMnemonic

/-- Assemble one line (R67): its comment is dropped; a line with nothing left assembles to no op. -/
def asmLine (line : List Char) : AsmLine :=
  let code := (line.takeWhile fun c => c != ';').dropWhile isBlank
  let m := code.takeWhile fun c => !isBlank c
  let rest := code.dropWhile fun c => !isBlank c
  if m = [] then .ops []
  else
    match operandField? rest with
    | some bs => asmOp m bs
    | none => .bad .badOperand

/-- The hexadecimal digit of a number below 16, in upper case. -/
def hexChar (n : Nat) : Char := Char.ofNat (if n < 10 then 48 + n else 55 + n)

/-- An operand written `0xNN`, after one blank. -/
def printOperand (b : Byte) : List Char := [' ', '0', 'x', hexChar (b.toNat / 16), hexChar (b.toNat % 16)]

/-- An op as one line of R67. -/
def printInstr : Instr → List Char
  | .gfeed b => ['G', 'F', 'E', 'E', 'D'] ++ printOperand b
  | .sfeed b => ['S', 'F', 'E', 'E', 'D'] ++ printOperand b
  | .spoll => ['S', 'P', 'O', 'L', 'L']
  | .stake => ['S', 'T', 'A', 'K', 'E']
  | .sclr => ['S', 'C', 'L', 'R']
  | .ckclr => ['C', 'K', 'C', 'L', 'R']
  | .ckacc b => ['C', 'K', 'A', 'C', 'C'] ++ printOperand b
  | .ckval b => ['C', 'K', 'V', 'A', 'L'] ++ printOperand b
  | .rread a => ['R', 'R', 'E', 'A', 'D'] ++ printOperand a

end Sys2Proof.Machine
end

