-- ==== Sys2Proof/Safety.lean ====
section
/-!
DEFINITION. The terms claims use: the invariants of R22, R28, R29 and R33, a sequence of ops with its responses
(R53), and what an outcome holds.
-/

namespace Sys2Proof.Machine

/-- R22's ranges that R28's table adds to the counters: the frame registers already written for the current frame
hold accepted values. -/
def Sfp.fieldsLegal (p : Sfp) : Bool :=
  match p.sstate with
  | .awaitHeader1 | .awaitHeader2 | .readId | .readLength => true
  | .readCommand => p.lenLegal
  | .readParams | .readChecksum =>
    p.lenLegal && decide (params.sCmdMin ≤ p.rxCmd) && decide (p.rxCmd ≤ params.sCmdMax)
  | .done => false

/-- The servo frame parser between two ops: R28's row for SSTATE, RX_ID ≤ S_ID_MAX (R22), RX_LEN and RX_CMD each
either never written or accepted (R22), and a legal RX_LEN while READY = 1 (R28). -/
abbrev Sfp.Inv (p : Sfp) : Prop :=
  p.countersAgree = true ∧ p.fieldsLegal = true ∧ p.rxId ≤ params.sIdMax ∧
    (p.rxLen = 0x00#8 ∨ p.lenLegal = true) ∧
    (p.rxCmd = 0x00#8 ∨ (params.sCmdMin ≤ p.rxCmd ∧ p.rxCmd ≤ params.sCmdMax)) ∧
    (p.ready = true → p.lenLegal = true)

/-- The gyro frame accumulator between two ops: GIDX is 0 to 10 (R29), and a frame under way begins with the sync
byte (R33). -/
abbrev Gfa.Inv (g : Gfa) : Prop :=
  g.gidx.toNat < params.gFrameLen ∧ (g.gidx ≠ 0#4 → byteAt g.gbuf 0 = params.gSync)

/-- The registers between two ops (R28, R29, R33). Nothing is asked of the lines and the schedule: any agent may
have issued any words, in any order. -/
abbrev State.Inv (s : State) : Prop := s.sfp.Inv ∧ s.gfa.Inv

/-- Perform a list of ops one after the other (R53): the last state and the responses in order. -/
def execAll : List Instr → State → Host.Outcome (State × List Word) Fault Refusal
  | [], s => .next (s, [])
  | i :: is, s =>
    match exec i s with
    | .next t =>
      match execAll is t with
      | .next (u, rs) => .next (u, t.response.toList ++ rs)
      | .fault f => .fault f
      | .refused r => .refused r
    | .fault f => .fault f
    | .refused r => .refused r

/-- The next state, if the outcome is one. -/
def nextState? {σ φ ρ : Type} : Host.Outcome σ φ ρ → Option σ
  | .next s => some s
  | .fault _ => none
  | .refused _ => none

/-- The fault, if the outcome is one. -/
def faultOf? {σ φ ρ : Type} : Host.Outcome σ φ ρ → Option φ
  | .next _ => none
  | .fault f => some f
  | .refused _ => none

end Sys2Proof.Machine
end

