-- ==== Sys2Proof/Certificates/Slice0/Obligations.lean ====
section
/-!
DEFINITION. The statements for the provers. Each docstring names the rule of spec/ it formalises. A response word is
written out as its bits (R60): the status in bits 11:8, the data in bits 7:0. A record update `{ s with ... }` of the
whole state is also the frame: every field it does not name is unchanged, and with it every byte of the register
map that shows such a field. The FRA has no memory beside its registers (R41), so there is no other byte to speak of.
-/

open Sys2Proof Sys2Proof.Machine

/-! ## Encoding -/

/-- Words of the spec's vectors (95_test_vectors.md), one for each op, decode to the op they stand for. -/
def Obligations.SampleWordsDecode : Prop :=
  decode 0b0001000001010101#16 = .op (.gfeed 0x55#8) ∧ decode 0b0010000011011111#16 = .op (.sfeed 0xDF#8) ∧
  decode 0b0010000100000000#16 = .op .spoll ∧ decode 0b0010001000000000#16 = .op .stake ∧
  decode 0b0010001100000000#16 = .op .sclr ∧ decode 0b0011000000000000#16 = .op .ckclr ∧
  decode 0b0011000100011100#16 = .op (.ckacc 0x1C#8) ∧ decode 0b0011001011011111#16 = .op (.ckval 0xDF#8) ∧
  decode 0b0100000001010010#16 = .op (.rread 0x52#8)

/-- R62, as match and mask: an op with an operand matches on the high byte, an op without one on the whole word,
and a word that matches no row is illegal. -/
def Obligations.OpcodeMapByMatchAndMask : Prop :=
  ∀ w : Word,
    (w &&& 0xFF00#16 = 0x1000#16 → decode w = .op (.gfeed (w.extractLsb' 0 8))) ∧
    (w &&& 0xFF00#16 = 0x2000#16 → decode w = .op (.sfeed (w.extractLsb' 0 8))) ∧
    (w = 0x2100#16 → decode w = .op .spoll) ∧
    (w = 0x2200#16 → decode w = .op .stake) ∧
    (w = 0x2300#16 → decode w = .op .sclr) ∧
    (w = 0x3000#16 → decode w = .op .ckclr) ∧
    (w &&& 0xFF00#16 = 0x3100#16 → decode w = .op (.ckacc (w.extractLsb' 0 8))) ∧
    (w &&& 0xFF00#16 = 0x3200#16 → decode w = .op (.ckval (w.extractLsb' 0 8))) ∧
    (w &&& 0xFF00#16 = 0x4000#16 → decode w = .op (.rread (w.extractLsb' 0 8))) ∧
    (w ∉ [0x2100#16, 0x2200#16, 0x2300#16, 0x3000#16] →
      w &&& 0xFF00#16 ∉ [0x1000#16, 0x2000#16, 0x3100#16, 0x3200#16, 0x4000#16] → ∃ why, decode w = .illegal why)

/-- R64 and R65: with the reserved ranges as those rules list them (`legalOpWord`), a legal word is an op, and an
illegal word changes no state and returns `respond(ILLEGAL, 0x00)`. -/
def Obligations.IllegalWordOnlyAnswers : Prop :=
  ∀ opc opnd : Byte,
    (legalOpWord opc opnd = true → ∃ i, decode (opc ++ opnd) = .op i) ∧
    (legalOpWord opc opnd = false →
      (∃ why, decode (opc ++ opnd) = .illegal why) ∧
      ∀ s : State, perform (opc ++ opnd) s = .next { s with response := some 0x0F00#16 })

/-- Decode and encode agree on every op and every operand (R59, R62, R63), both ways: no bit of an encoding is
dropped, and a legal word has exactly one op. -/
def Obligations.DecodeEncodeAgree : Prop :=
  (∀ i : Instr, decode (encode i) = .op i) ∧ (∀ (w : Word) (i : Instr), decode w = .op i → encode i = w)

/-- R67: an op printed as one line of assembler text assembles to that op, and so it does with a comment after it.
That a blank may stand before the comment's semicolon is the model's choice (log entry 16): R67 does not say it. -/
def Obligations.AssemblerReadsPrintedOp : Prop :=
  ∀ (i : Instr) (comment : List Char),
    asmLine (printInstr i) = .ops [i] ∧ asmLine (printInstr i ++ ' ' :: ';' :: comment) = .ops [i]

/-- R68: the expansion of each pseudo-op. -/
def Obligations.PseudoOpExpansions : Prop :=
  (∀ bs, expand (.sbytes bs) = bs.map .sfeed) ∧
  (∀ bs, expand (.gbytes bs) = bs.map .gfeed) ∧
  (∀ id cmd ps, ps.length ≤ 4 →
    expand (.sframe id cmd ps) =
      (([0x55#8, 0x55#8, id, BitVec.ofNat 8 (ps.length + 3), cmd] ++ ps) ++
        [cks ([id, BitVec.ofNat 8 (ps.length + 3), cmd] ++ ps)]).map .sfeed) ∧
  (∀ st ds x, ds.length = 8 → expand (.gframe st ds x) = ([0x55#8, st] ++ ds ++ [x]).map .gfeed) ∧
  (∀ bs, expand (.ckgen bs) = [.ckclr] ++ bs.map .ckacc ++ [.rread 0x52#8])

/-! ## Steps, agents and reset -/

/-- A step runs the decoded instruction: on an agent's turn, its oldest op word is taken off its line and, when it
decodes to `i`, the step is `exec i` (R10, R53). Around it the step only moves past the event, names the issuer
and clears the response of the step before: the fields for these are the model's (log entries 2 and 4). -/
def Obligations.StepRunsDecodedOp : Prop :=
  ∀ (s : State) (a : Agent) (rest : List Event) (w : Word) (ws : List Word) (i : Instr),
    s.schedule = .turn a :: rest → lineOf s.lines a = w :: ws → decode w = .op i →
    step s = exec i
      { s with schedule := rest, lines := setLine s.lines ws a, issuer := some a, response := none }

/-- R54, over the lines and the schedule the model holds (log entry 2): every agent that has issued an op can be
the one served next, whatever the others have issued, and a step takes ops off a line only from its front: at most
the oldest one. The second clause is over every step, resets too: that a reset takes at most the oldest word off a
line, the consumer's and the guard timer's included, is the model's choice (log entry 12), which R54 does not
give. -/
def Obligations.EveryInterleavingInLineOrder : Prop :=
  (∀ (s : State) (a : Agent) (rest : List Event) (w : Word) (ws : List Word),
    lineOf s.lines a = w :: ws →
    step { s with schedule := .turn a :: rest } =
      perform w { s with schedule := rest, lines := setLine s.lines ws a, issuer := some a, response := none }) ∧
  (∀ s t : State, step s = .next t →
    ∀ a : Agent, lineOf t.lines a = lineOf s.lines a ∨ ∃ w, lineOf s.lines a = w :: lineOf t.lines a) ∧
  (∀ s t : State, step s = .next t →
    ∀ a b : Agent, (∀ g r, s.schedule.head? ≠ some (.reset g r)) →
      lineOf t.lines a ≠ lineOf s.lines a → lineOf t.lines b ≠ lineOf s.lines b → a = b)

/-- R10, "between ops the state does not change": with no event, or at the turn of an agent that has issued
nothing, no register and no line changes. That such a step returns no response is the model's choice (log
entry 3). -/
def Obligations.IdleStepChangesNoRegister : Prop :=
  (∀ s : State, s.schedule = [] → step s = .next { s with issuer := none, response := none }) ∧
  (∀ (s : State) (a : Agent) (rest : List Event), s.schedule = .turn a :: rest → lineOf s.lines a = [] →
    step s = .next { s with schedule := rest, issuer := none, response := none })

/-- R138 with the table of R40: reset sets every register to its value, all in one step, from every state. -/
def Obligations.ResetSetsEveryRegister : Prop :=
  ∀ (s : State) (loseRxg loseRxs : Bool) (rest : List Event), s.schedule = .reset loseRxg loseRxs :: rest →
    ∃ t : State, step s = .next t ∧
      t.sfp = { sstate := .awaitHeader1, shcnt := 0#2, sbcnt := 0#4, spcnt := 0#3, rxId := 0x00#8,
                rxLen := 0x00#8, rxCmd := 0x00#8, rxP := #v[0x00#8, 0x00#8, 0x00#8, 0x00#8], rxCks := 0x00#8,
                rxCkcalc := 0x00#8, ready := false, ckok := false } ∧
      t.gfa = { gidx := 0#4, gbuf := Vector.replicate 11 0x00#8, acc := Vector.replicate 8 0x00#8,
                arate := Vector.replicate 8 0x00#8, angle := Vector.replicate 8 0x00#8 } ∧
      t.cku = { ckacc := 0x0000#16 }

/-- A byte that a receive line was delivering at reset is fed after it or not at all (70_reset_and_hazards.md
section 1). That every other undelivered op stays on its line, and that reset returns no response, is the model's
choice (log entries 2, 4 and 12). -/
def Obligations.ResetKeepsUndeliveredOps : Prop :=
  ∀ (s : State) (loseRxg loseRxs : Bool) (rest : List Event), s.schedule = .reset loseRxg loseRxs :: rest →
    step s = .next { State.reset with
      lines := { s.lines with rxg := if loseRxg then s.lines.rxg.tail else s.lines.rxg,
                              rxs := if loseRxs then s.lines.rxs.tail else s.lines.rxs },
      schedule := rest }

/-- The register map right after reset (R38, R40, R140): the unmapped addresses of R44 read nothing, CKRES reads
0xFF, every other mapped address 0x00. -/
def Obligations.RegisterMapAfterReset : Prop :=
  ∀ a : Byte, regMap State.reset a =
    if (0x0D ≤ a.toNat ∧ a.toNat ≤ 0x0F) ∨ (0x11 ≤ a.toNat ∧ a.toNat ≤ 0x1F) ∨
        (0x38 ≤ a.toNat ∧ a.toNat ≤ 0x3F) ∨ (0x4B ≤ a.toNat ∧ a.toNat ≤ 0x4F) ∨ 0x53 ≤ a.toNat then none
    else some (if a = 0x52#8 then 0xFF#8 else 0x00#8)

/-- What an op does to the registers, and its response, depend on the registers alone: not on who issued it
(R130), on what is waiting, or on an earlier response (R37, R39). And an op leaves the lines, the schedule and the
issuer alone. -/
def Obligations.OpsReadRegistersOnly : Prop :=
  ∀ (i : Instr) (s s' : State), s.sfp = s'.sfp → s.gfa = s'.gfa → s.cku = s'.cku →
    (∀ f, exec i s = .fault f → exec i s' = .fault f) ∧
    (∀ t, exec i s = .next t →
      (∃ t', exec i s' = .next t' ∧ t'.sfp = t.sfp ∧ t'.gfa = t.gfa ∧ t'.cku = t.cku ∧
        t'.response = t.response) ∧
      t.lines = s.lines ∧ t.schedule = s.schedule ∧ t.issuer = s.issuer)

/-- R60 and R61's last line: every op word, an illegal one too, returns one response word whose bits 15:12 are 0 and
whose status is none of 0x4 to 0xE. -/
def Obligations.ResponseWordShape : Prop :=
  ∀ (w : Word) (s t : State), perform w s = .next t →
    ∃ r, t.response = some r ∧ r.extractLsb' 12 4 = 0#4 ∧
      (r.extractLsb' 8 4 = 0x0#4 ∨ r.extractLsb' 8 4 = 0x1#4 ∨ r.extractLsb' 8 4 = 0x2#4 ∨
        r.extractLsb' 8 4 = 0x3#4 ∨ r.extractLsb' 8 4 = 0xF#4)

/-! ## Checksum unit -/

/-- R83: CKCLR. -/
def Obligations.CkclrClearsAccumulator : Prop :=
  decode 0x3000#16 = .op .ckclr ∧
  (∀ opnd : Byte, opnd ≠ 0x00#8 → decode (0x30#8 ++ opnd) = .illegal .operandNotZero) ∧
  ∀ s : State,
    exec .ckclr s = .next { s with cku := { ckacc := 0x0000#16 }, response := some 0x0000#16 } ∧
    regMap { s with cku := { ckacc := 0x0000#16 }, response := some 0x0000#16 } 0x52#8 = some 0xFF#8

/-- R84: CKACC b. The accumulator wraps at 2^16, and its low byte is that of an unbounded sum. -/
def Obligations.CkaccAddsOneByte : Prop :=
  (∀ b : Byte, decode (0x31#8 ++ b) = .op (.ckacc b)) ∧
  ∀ (s : State) (b : Byte),
    exec (.ckacc b) s =
      .next { s with cku := { ckacc := BitVec.ofNat 16 ((s.cku.ckacc.toNat + b.toNat) % 2 ^ 16) },
                     response := some 0x0000#16 } ∧
    (BitVec.ofNat 16 ((s.cku.ckacc.toNat + b.toNat) % 2 ^ 16)).toNat % 256 = (s.cku.ckacc.toNat + b.toNat) % 256

/-- R85: CKVAL b. -/
def Obligations.CkvalComparesByte : Prop :=
  (∀ b : Byte, decode (0x32#8 ++ b) = .op (.ckval b)) ∧
  ∀ (s : State) (b : Byte),
    exec (.ckval b) s =
      .next { s with response := some (if (~~~s.cku.ckacc).extractLsb' 0 8 = b then 0x0001#16 else 0x0000#16) }

/-- The checksum function (40_checksum.md section 1): 0xFF less the sum modulo 256, 0xFF for the empty list. -/
def Obligations.ChecksumIsInvertedLowByte : Prop :=
  (∀ bs : List Byte, (cks bs).toNat = 255 - (bs.map BitVec.toNat).sum % 256) ∧ cks [] = 0xFF#8

/-- What the checksum does not detect (40_checksum.md section 3, (d)): reordered bytes, a 0x00 byte added, and bytes
added whose sum is a multiple of 256. -/
def Obligations.ChecksumBlindSpots : Prop :=
  (∀ bs cs : List Byte, bs.Perm cs → cks bs = cks cs) ∧
  (∀ bs : List Byte, cks (0x00#8 :: bs) = cks bs) ∧
  (∀ bs cs : List Byte, (cs.map BitVec.toNat).sum % 256 = 0 → cks (bs ++ cs) = cks bs)

/-- The streaming generator (40_checksum.md section 3, (b)): CKCLR and then CKACC of each byte leave CKRES = CKS of
the bytes, and CKVAL of it answers 0x01, from every state and for every list of bytes. -/
def Obligations.GeneratorComputesChecksum : Prop :=
  ∀ (s : State) (bs : List Byte), ∃ t : State,
    execAll (.ckclr :: (bs.map .ckacc ++ [.rread 0x52#8, .ckval (cks bs)])) s =
      .next (t, List.replicate (bs.length + 1) 0x0000#16 ++ [0x00#8 ++ cks bs, 0x0001#16]) ∧
    t = { s with cku := { ckacc := BitVec.ofNat 16 (bs.map BitVec.toNat).sum }, response := some 0x0001#16 }

/-! ## Gyro frame accumulator -/

/-- Storing and the sync check (41_gyro_parser.md): at GIDX = 0 a byte other than the sync byte is stored at
GBUF[0] and rejected with data 0x01, and GIDX stays 0; no byte received mid-frame is rejected so. -/
def Obligations.GfeedRejectsBadSync : Prop :=
  (∀ (s : State) (b : Byte), s.gfa.gidx = 0#4 → b ≠ 0x55#8 →
    exec (.gfeed b) s =
      .next { s with gfa := { s.gfa with gbuf := s.gfa.gbuf.set 0 b }, response := some 0x0301#16 }) ∧
  (∀ (s : State) (b : Byte), s.gfa.Inv → s.gfa.gidx ≠ 0#4 →
    ∃ t, exec (.gfeed b) s = .next t ∧ t.response ≠ some 0x0301#16)

/-- R92: while GIDX after the write is below 11, the byte is stored and the op answers INCOMPLETE with the new
GIDX. -/
def Obligations.GfeedAccumulates : Prop :=
  ∀ (s : State) (b : Byte), s.gfa.Inv → s.gfa.gidx.toNat < 10 → (s.gfa.gidx = 0#4 → b = 0x55#8) →
    exec (.gfeed b) s =
      .next { s with
        gfa := { s.gfa with gbuf := s.gfa.gbuf.setIfInBounds s.gfa.gidx.toNat b, gidx := s.gfa.gidx + 1#4 },
        response := some (0x01#8 ++ BitVec.ofNat 8 (s.gfa.gidx.toNat + 1)) }

/-- R93: the byte that brings GIDX to 11 resets GIDX, copies GBUF[2..9] into the structure of the sub-type GBUF[1],
leaves the other two alone, keeps GBUF, and answers COMPLETE with the sub-type. -/
def Obligations.GfeedDispatchesKnownSubtype : Prop :=
  ∀ (s : State) (b : Byte), s.gfa.Inv → s.gfa.gidx = 10#4 →
    (s.gfa.gbuf[1] = 0x51#8 →
      exec (.gfeed b) s =
        .next { s with
          gfa := { s.gfa with gidx := 0#4, gbuf := s.gfa.gbuf.set 10 b,
                              acc := Vector.ofFn fun k : Fin 8 => s.gfa.gbuf[2 + k.val] },
          response := some 0x0251#16 }) ∧
    (s.gfa.gbuf[1] = 0x52#8 →
      exec (.gfeed b) s =
        .next { s with
          gfa := { s.gfa with gidx := 0#4, gbuf := s.gfa.gbuf.set 10 b,
                              arate := Vector.ofFn fun k : Fin 8 => s.gfa.gbuf[2 + k.val] },
          response := some 0x0252#16 }) ∧
    (s.gfa.gbuf[1] = 0x53#8 →
      exec (.gfeed b) s =
        .next { s with
          gfa := { s.gfa with gidx := 0#4, gbuf := s.gfa.gbuf.set 10 b,
                              angle := Vector.ofFn fun k : Fin 8 => s.gfa.gbuf[2 + k.val] },
          response := some 0x0253#16 })

/-- R94: with an unknown sub-type no decoded structure changes, GIDX is reset to 0, and the op answers REJECTED with
data 0x02. -/
def Obligations.GfeedDropsUnknownSubtype : Prop :=
  ∀ (s : State) (b : Byte), s.gfa.Inv → s.gfa.gidx = 10#4 → s.gfa.gbuf[1] ∉ [0x51#8, 0x52#8, 0x53#8] →
    exec (.gfeed b) s =
      .next { s with gfa := { s.gfa with gidx := 0#4, gbuf := s.gfa.gbuf.set 10 b },
                     response := some 0x0302#16 }

/-- A whole gyro frame (R69 to R71, R93, R94), fed from GIDX = 0 whatever the registers held: ten answers
INCOMPLETE 1 to 10, then the dispatch. Byte 10 of the frame is stored and ignored. -/
def Obligations.GyroFrameIsDecoded : Prop :=
  ∀ (s : State) (st x : Byte) (d : Vector Byte 8), s.gfa.gidx = 0#4 →
    ∃ t : State,
      execAll ((0x55#8 :: st :: (d.toList ++ [x])).map .gfeed) s =
        .next (t, (List.range 10).map (fun n => 0x01#8 ++ BitVec.ofNat 8 (n + 1)) ++
          [if st ∈ [0x51#8, 0x52#8, 0x53#8] then 0x02#8 ++ st else 0x0302#16]) ∧
      t.sfp = s.sfp ∧ t.cku = s.cku ∧ t.gfa.gidx = 0#4 ∧
      t.gfa.gbuf.toList = 0x55#8 :: st :: (d.toList ++ [x]) ∧
      t.gfa.acc = (if st = 0x51#8 then d else s.gfa.acc) ∧
      t.gfa.arate = (if st = 0x52#8 then d else s.gfa.arate) ∧
      t.gfa.angle = (if st = 0x53#8 then d else s.gfa.angle)

/-- R96: GFEED reads and writes only GIDX, GBUF, ACC, ARATE and ANGLE; no other op writes these; reset does; and no
op but a completing GFEED brings a GIDX that is not 0 back to 0. -/
def Obligations.GyroUnitIndependent : Prop :=
  (∀ (s : State) (b : Byte) (t : State), exec (.gfeed b) s = .next t → t.sfp = s.sfp ∧ t.cku = s.cku) ∧
  (∀ (s s' : State) (b : Byte) (t : State), s.gfa = s'.gfa → exec (.gfeed b) s = .next t →
    ∃ t', exec (.gfeed b) s' = .next t' ∧ t'.gfa = t.gfa ∧ t'.response = t.response) ∧
  (∀ (i : Instr) (s t : State), (∀ b, i ≠ .gfeed b) → exec i s = .next t → t.gfa = s.gfa) ∧
  (∀ (s t : State) (g r : Bool) (rest : List Event), s.schedule = .reset g r :: rest → step s = .next t →
    t.gfa = State.reset.gfa) ∧
  (∀ (i : Instr) (s t : State), s.gfa.Inv → exec i s = .next t → s.gfa.gidx ≠ 0#4 → t.gfa.gidx = 0#4 →
    (∃ b, i = .gfeed b) ∧ s.gfa.gidx = 10#4)

/-- R32 and R47: a component is little-endian and signed, the reserved field is bytes 6 and 7. -/
def Obligations.ComponentsAreLittleEndian : Prop :=
  (∀ (v : Vector Byte 8) (c : Fin 3),
    (component v c).toInt =
      if v[2 * c.val + 1].toNat < 128 then 256 * (v[2 * c.val + 1].toNat : Int) + v[2 * c.val].toNat
      else 256 * (v[2 * c.val + 1].toNat : Int) + v[2 * c.val].toNat - 65536) ∧
  (∀ v : Vector Byte 8, (reservedField v).toNat = 256 * v[7].toNat + v[6].toNat)

/-- A decoded structure changes only by a GFEED that completes a frame of its own sub-type (R31). -/
def Obligations.DecodedStructureWriters : Prop :=
  ∀ (i : Instr) (s t : State), s.gfa.Inv → exec i s = .next t →
    (t.gfa.acc ≠ s.gfa.acc → (∃ b, i = .gfeed b) ∧ s.gfa.gidx = 10#4 ∧ s.gfa.gbuf[1] = 0x51#8) ∧
    (t.gfa.arate ≠ s.gfa.arate → (∃ b, i = .gfeed b) ∧ s.gfa.gidx = 10#4 ∧ s.gfa.gbuf[1] = 0x52#8) ∧
    (t.gfa.angle ≠ s.gfa.angle → (∃ b, i = .gfeed b) ∧ s.gfa.gidx = 10#4 ∧ s.gfa.gbuf[1] = 0x53#8)

/-! ## Servo frame parser: SFEED -/

/-- R99: SFEED in AWAIT_HEADER1. -/
def Obligations.SfeedAwaitHeader1 : Prop :=
  ∀ (s : State) (b : Byte), s.sfp.Inv → s.sfp.sstate = .awaitHeader1 →
    exec (.sfeed b) s =
      if b = 0x55#8 then
        .next { s with sfp := { s.sfp with sstate := .awaitHeader2, shcnt := 1#2 }, response := some 0x0100#16 }
      else .next { s with response := some 0x0100#16 }

/-- R100: SFEED in AWAIT_HEADER2. -/
def Obligations.SfeedAwaitHeader2 : Prop :=
  ∀ (s : State) (b : Byte), s.sfp.Inv → s.sfp.sstate = .awaitHeader2 →
    exec (.sfeed b) s =
      if b = 0x55#8 then
        .next { s with sfp := { s.sfp with sstate := .readId, shcnt := 2#2, sbcnt := 2#4, spcnt := 0#3 },
                       response := some 0x0100#16 }
      else
        .next { s with sfp := { s.sfp with sstate := .awaitHeader1, shcnt := 0#2, sbcnt := 0#4, spcnt := 0#3 },
                       response := some 0x0304#16 }

/-- R101: SFEED in READ_ID. -/
def Obligations.SfeedReadId : Prop :=
  ∀ (s : State) (b : Byte), s.sfp.Inv → s.sfp.sstate = .readId →
    exec (.sfeed b) s =
      if b.toNat ≤ 254 then
        .next { s with sfp := { s.sfp with rxId := b, sbcnt := 3#4, sstate := .readLength },
                       response := some 0x0100#16 }
      else
        .next { s with sfp := { s.sfp with sstate := .awaitHeader1, shcnt := 0#2, sbcnt := 0#4, spcnt := 0#3 },
                       response := some 0x0301#16 }

/-- R102: SFEED in READ_LENGTH. -/
def Obligations.SfeedReadLength : Prop :=
  ∀ (s : State) (b : Byte), s.sfp.Inv → s.sfp.sstate = .readLength →
    exec (.sfeed b) s =
      if 3 ≤ b.toNat ∧ b.toNat ≤ 7 then
        .next { s with sfp := { s.sfp with rxLen := b, sbcnt := 4#4, sstate := .readCommand },
                       response := some 0x0100#16 }
      else
        .next { s with sfp := { s.sfp with sstate := .awaitHeader1, shcnt := 0#2, sbcnt := 0#4, spcnt := 0#3 },
                       response := some 0x0302#16 }

/-- R103: SFEED in READ_COMMAND. -/
def Obligations.SfeedReadCommand : Prop :=
  ∀ (s : State) (b : Byte), s.sfp.Inv → s.sfp.sstate = .readCommand →
    exec (.sfeed b) s =
      if 1 ≤ b.toNat ∧ b.toNat ≤ 0x36 then
        .next { s with
          sfp := { s.sfp with rxCmd := b, sbcnt := 5#4, spcnt := 0#3,
                              sstate := if s.sfp.rxLen.toNat = 3 then .readChecksum else .readParams },
          response := some 0x0100#16 }
      else
        .next { s with sfp := { s.sfp with sstate := .awaitHeader1, shcnt := 0#2, sbcnt := 0#4, spcnt := 0#3 },
                       response := some 0x0303#16 }

/-- R104: SFEED in READ_PARAMS stores any byte at RX_P[SPCNT], which is inside RX_P[0..3], counts it, and moves on
after the last of RX_LEN - 3 parameters. -/
def Obligations.SfeedReadParams : Prop :=
  ∀ (s : State) (b : Byte), s.sfp.Inv → s.sfp.sstate = .readParams →
    ∃ h : s.sfp.spcnt.toNat < 4,
      exec (.sfeed b) s =
        .next { s with
          sfp := { s.sfp with rxP := s.sfp.rxP.set s.sfp.spcnt.toNat b h,
                              spcnt := BitVec.ofNat 3 (s.sfp.spcnt.toNat + 1),
                              sbcnt := BitVec.ofNat 4 (s.sfp.sbcnt.toNat + 1),
                              sstate := if s.sfp.spcnt.toNat + 1 = s.sfp.rxLen.toNat - 3 then .readChecksum
                                        else .readParams },
          response := some 0x0100#16 }

/-- R105: SFEED in READ_CHECKSUM completes the frame: the received and the computed checksum and their comparison
are recorded, READY is set whatever the comparison says, and the transient state is reset. -/
def Obligations.SfeedReadChecksumCompletes : Prop :=
  ∀ (s : State) (b : Byte), s.sfp.Inv → s.sfp.sstate = .readChecksum →
    exec (.sfeed b) s =
      .next { s with
        sfp := { s.sfp with
          rxCks := b,
          rxCkcalc := cks ([s.sfp.rxId, s.sfp.rxLen, s.sfp.rxCmd] ++ s.sfp.rxP.toList.take (s.sfp.rxLen.toNat - 3)),
          ckok := decide (b = cks ([s.sfp.rxId, s.sfp.rxLen, s.sfp.rxCmd] ++
            s.sfp.rxP.toList.take (s.sfp.rxLen.toNat - 3))),
          ready := true, sstate := .awaitHeader1, shcnt := 0#2, sbcnt := 0#4, spcnt := 0#3 },
        response := some 0x0200#16 }

/-- An SFEED that answers REJECTED has reset the transient state and changed nothing else of the parser (R106): no
frame register, not READY, not CKOK; and the byte is consumed, even a sync byte (R107), so that the parser is in
AWAIT_HEADER1. -/
def Obligations.AbortChangesTransientStateOnly : Prop :=
  ∀ (s t : State) (b c : Byte), s.sfp.Inv → exec (.sfeed b) s = .next t → t.response = some (0x03#8 ++ c) →
    t = { s with sfp := { s.sfp with sstate := .awaitHeader1, shcnt := 0#2, sbcnt := 0#4, spcnt := 0#3 },
                 response := some (0x03#8 ++ c) } ∧
    ((c = 0x01#8 ∧ s.sfp.sstate = .readId ∧ b = 0xFF#8) ∨
     (c = 0x02#8 ∧ s.sfp.sstate = .readLength ∧ (b.toNat < 3 ∨ 7 < b.toNat)) ∨
     (c = 0x03#8 ∧ s.sfp.sstate = .readCommand ∧ (b = 0x00#8 ∨ 0x36 < b.toNat)) ∨
     (c = 0x04#8 ∧ s.sfp.sstate = .awaitHeader2 ∧ b ≠ 0x55#8))

/-- The stops of the model (93_implementation_defined.md I1, I5, I6), in states that no run reaches: SFEED in DONE
(log entry 5), with an RX_LEN outside [3, 7] after READ_LENGTH (log entry 7), or with counters that disagree with
SSTATE (log entry 6); GFEED with GIDX above 10 (log entry 8); STAKE with READY = 1 and RX_LEN outside [3, 7] (log
entry 7). That an SFEED already in READ_COMMAND stops at such an RX_LEN is the model's choice (log entry 7): I1
speaks of completion. That nothing else stops is not said here: see EveryOpHasAResponse and NoRunStops. -/
def Obligations.StopsOutsideTheInvariants : Prop :=
  (∀ (s : State) (b : Byte), s.sfp.sstate = .done → exec (.sfeed b) s = .fault .sstateDone) ∧
  (∀ (s : State) (b : Byte), s.sfp.sstate ∈ [.readCommand, .readParams, .readChecksum] →
    (s.sfp.rxLen.toNat < 3 ∨ 7 < s.sfp.rxLen.toNat) → exec (.sfeed b) s = .fault .lengthOutOfRange) ∧
  (∀ (s : State) (b : Byte), s.sfp.sstate ≠ .done →
    (s.sfp.sstate ∈ [.readCommand, .readParams, .readChecksum] →
      3 ≤ s.sfp.rxLen.toNat ∧ s.sfp.rxLen.toNat ≤ 7) →
    s.sfp.countersAgree = false → exec (.sfeed b) s = .fault .countersDisagree) ∧
  (∀ (s : State) (b : Byte), 10 < s.gfa.gidx.toNat → exec (.gfeed b) s = .fault .gidxOutOfRange) ∧
  (∀ s : State, s.sfp.ready = true → (s.sfp.rxLen.toNat < 3 ∨ 7 < s.sfp.rxLen.toNat) →
    exec .stake s = .fault .lengthOutOfRange)

/-! ## Servo frame parser: whole frames -/

/-- A well-formed servo frame fed from AWAIT_HEADER1 (42_servo_parser.md section 3): every SFEED but the last answers
INCOMPLETE, the last COMPLETE; the frame's fields are in the frame registers, the parameter registers beyond them
keep what they held, READY = CKOK = 1, and a STAKE right after answers COMPLETE. -/
def Obligations.WellFormedFrameIsParsed : Prop :=
  ∀ (s : State) (f : ServoFrame), s.sfp.Inv → s.sfp.sstate = .awaitHeader1 → f.wellFormed = true →
    ∃ t : State,
      execAll ((ServoFrame.bytes f).map .sfeed) s =
        .next (t, List.replicate (f.ps.length + 5) 0x0100#16 ++ [0x0200#16]) ∧
      t.gfa = s.gfa ∧ t.cku = s.cku ∧
      t.sfp.sstate = .awaitHeader1 ∧ t.sfp.ready = true ∧ t.sfp.ckok = true ∧
      t.sfp.rxId = f.id ∧ t.sfp.rxLen.toNat = f.ps.length + 3 ∧ t.sfp.rxCmd = f.cmd ∧
      t.sfp.rxP.toList = f.ps ++ s.sfp.rxP.toList.drop f.ps.length ∧
      t.sfp.rxCks = cks ([f.id, t.sfp.rxLen, f.cmd] ++ f.ps) ∧ t.sfp.rxCkcalc = t.sfp.rxCks ∧
      exec .stake t = .next { t with sfp := { t.sfp with ready := false }, response := some 0x0200#16 }

/-- Header search (42_servo_parser.md section 3): bytes other than the sync byte, fed in AWAIT_HEADER1, change no
register, so a well-formed frame after them is parsed. -/
def Obligations.FrameAfterNoiseIsParsed : Prop :=
  ∀ (s : State) (noise : List Byte) (f : ServoFrame), s.sfp.Inv → s.sfp.sstate = .awaitHeader1 →
    0x55#8 ∉ noise → f.wellFormed = true →
    ∃ t : State,
      execAll ((noise ++ ServoFrame.bytes f).map .sfeed) s =
        .next (t, List.replicate (noise.length + f.ps.length + 5) 0x0100#16 ++ [0x0200#16]) ∧
      t.sfp.ready = true ∧ t.sfp.ckok = true ∧
      t.sfp.rxId = f.id ∧ t.sfp.rxLen.toNat = f.ps.length + 3 ∧ t.sfp.rxCmd = f.cmd ∧
      t.sfp.rxP.toList.take f.ps.length = f.ps ∧ t.sfp.rxCks = cks ([f.id, t.sfp.rxLen, f.cmd] ++ f.ps)

/-- The guard timer's purpose (42_servo_parser.md, SCLR; 70_reset_and_hazards.md section 3): whatever partial frame
the parser is wedged in, after SCLR a well-formed frame is parsed. -/
def Obligations.SclrFreesWedgedParser : Prop :=
  ∀ (s : State) (f : ServoFrame), s.sfp.Inv → f.wellFormed = true →
    ∃ t : State,
      execAll (.sclr :: (ServoFrame.bytes f).map .sfeed) s =
        .next (t, 0x0000#16 :: (List.replicate (f.ps.length + 5) 0x0100#16 ++ [0x0200#16])) ∧
      t.sfp.ready = true ∧ t.sfp.ckok = true ∧
      t.sfp.rxId = f.id ∧ t.sfp.rxLen.toNat = f.ps.length + 3 ∧ t.sfp.rxCmd = f.cmd ∧
      t.sfp.rxP.toList.take f.ps.length = f.ps ∧ t.sfp.rxCks = cks ([f.id, t.sfp.rxLen, f.cmd] ++ f.ps)

/-- The single-buffer race (70_reset_and_hazards.md section 3): when the header and the ID of a new frame arrive
between a completion and STAKE, STAKE validates the mix of the new ID with the old fields. -/
def Obligations.StakeValidatesTheMix : Prop :=
  ∀ (s : State) (id : Byte), s.sfp.Inv → s.sfp.sstate = .awaitHeader1 → s.sfp.ready = true →
    id.toNat ≤ 254 →
    ∃ t : State,
      execAll [.sfeed 0x55#8, .sfeed 0x55#8, .sfeed id, .stake] s =
        .next (t, [0x0100#16, 0x0100#16, 0x0100#16,
          if cks ([id, s.sfp.rxLen, s.sfp.rxCmd] ++ s.sfp.rxP.toList.take (s.sfp.rxLen.toNat - 3)) = s.sfp.rxCks
          then 0x0200#16 else 0x0300#16]) ∧
      t.sfp.ready = false ∧ t.sfp.rxId = id ∧ t.sfp.rxLen = s.sfp.rxLen ∧ t.sfp.sstate = .readLength

/-! ## Servo frame parser: SPOLL, STAKE, SCLR and the flags -/

/-- R111: SPOLL. -/
def Obligations.SpollReadsAndClearsReady : Prop :=
  decode 0x2100#16 = .op .spoll ∧
  (∀ opnd : Byte, opnd ≠ 0x00#8 → decode (0x21#8 ++ opnd) = .illegal .operandNotZero) ∧
  ∀ s : State,
    exec .spoll s =
      .next { s with sfp := { s.sfp with ready := false },
                     response := some (if s.sfp.ready = true then 0x0001#16 else 0x0000#16) }

/-- R112: STAKE. -/
def Obligations.StakeClaimsAndValidates : Prop :=
  decode 0x2200#16 = .op .stake ∧
  (∀ opnd : Byte, opnd ≠ 0x00#8 → decode (0x22#8 ++ opnd) = .illegal .operandNotZero) ∧
  (∀ s : State, s.sfp.ready = false → exec .stake s = .next { s with response := some 0x0100#16 }) ∧
  (∀ s : State, s.sfp.ready = true → 3 ≤ s.sfp.rxLen.toNat → s.sfp.rxLen.toNat ≤ 7 →
    exec .stake s =
      .next { s with
        sfp := { s.sfp with ready := false },
        response := some (
          if cks ([s.sfp.rxId, s.sfp.rxLen, s.sfp.rxCmd] ++ s.sfp.rxP.toList.take (s.sfp.rxLen.toNat - 3)) =
            s.sfp.rxCks then 0x0200#16 else 0x0300#16) })

/-- R113: SCLR. -/
def Obligations.SclrResetsTransientState : Prop :=
  decode 0x2300#16 = .op .sclr ∧
  (∀ opnd : Byte, opnd ≠ 0x00#8 → decode (0x23#8 ++ opnd) = .illegal .operandNotZero) ∧
  ∀ s : State,
    exec .sclr s =
      .next { s with sfp := { s.sfp with sstate := .awaitHeader1, shcnt := 0#2, sbcnt := 0#4, spcnt := 0#3 },
                     response := some 0x0000#16 }

/-- R26: READY is set by a completing SFEED alone, and cleared by SPOLL, STAKE and reset alone, which do clear it;
RREAD shows it as bit 0 of SSTAT. -/
def Obligations.ReadyWriters : Prop :=
  (∀ (i : Instr) (s t : State), exec i s = .next t → s.sfp.ready = false → t.sfp.ready = true →
    (∃ b, i = .sfeed b) ∧ s.sfp.sstate = .readChecksum) ∧
  (∀ (i : Instr) (s t : State), exec i s = .next t → s.sfp.ready = true → t.sfp.ready = false →
    i = .spoll ∨ i = .stake) ∧
  (∀ (b : Byte) (s t : State), exec (.sfeed b) s = .next t → s.sfp.sstate = .readChecksum →
    t.sfp.ready = true) ∧
  (∀ (i : Instr) (s t : State), (i = .spoll ∨ i = .stake) → exec i s = .next t → t.sfp.ready = false) ∧
  (∀ (s t : State) (g r : Bool) (rest : List Event), s.schedule = .reset g r :: rest → step s = .next t →
    t.sfp.ready = false) ∧
  (∀ s : State, ∃ d : Byte, exec (.rread 0x00#8) s = .next { s with response := some (0x00#8 ++ d) } ∧
    d.getLsbD 0 = s.sfp.ready)

/-- R27: CKOK is written at every completion, with whether the received checksum byte equals the computed one, and
kept by every other op until reset clears it; RREAD shows it as bit 1 of SSTAT; STAKE does not read it. -/
def Obligations.CkokWriters : Prop :=
  (∀ (i : Instr) (s t : State), exec i s = .next t →
    ((∃ b, i = .sfeed b) ∧ s.sfp.sstate = .readChecksum ∧
        (t.sfp.ckok = true ↔ t.sfp.rxCks = t.sfp.rxCkcalc)) ∨
      t.sfp.ckok = s.sfp.ckok) ∧
  (∀ (s t : State) (b : Byte), s.sfp.sstate = .readChecksum → exec (.sfeed b) s = .next t →
    (t.sfp.ckok = true ↔ t.sfp.rxCks = t.sfp.rxCkcalc)) ∧
  (∀ (s t : State) (c : Bool), exec .stake s = .next t →
    exec .stake { s with sfp := { s.sfp with ckok := c } } = .next { t with sfp := { t.sfp with ckok := c } }) ∧
  (∀ (s t : State) (g r : Bool) (rest : List Event), s.schedule = .reset g r :: rest → step s = .next t →
    t.sfp.ckok = false) ∧
  (∀ s : State, ∃ d : Byte, exec (.rread 0x00#8) s = .next { s with response := some (0x00#8 ++ d) } ∧
    d.getLsbD 1 = s.sfp.ckok)

/-- With no SFEED since the completion, STAKE answers COMPLETE exactly when CKOK = 1 (42_servo_parser.md, STAKE),
whatever other ops that do not claim the frame come between. -/
def Obligations.StakeAgreesWithCkok : Prop :=
  ∀ (s : State) (b : Byte) (between : List Instr) (t : State) (rs : List Word), s.sfp.Inv →
    s.sfp.sstate = .readChecksum → (∀ i ∈ between, (∀ c, i ≠ .sfeed c) ∧ i ≠ .spoll ∧ i ≠ .stake) →
    execAll (.sfeed b :: between) s = .next (t, rs) →
    ∃ u, exec .stake t = .next u ∧ u.response = some (if t.sfp.ckok = true then 0x0200#16 else 0x0300#16)

/-- Between two agents that both poll, at most one sees a given setting of READY (20_memory.md section 5): after
SPOLL or STAKE, and with no SFEED in between, the next poll finds no frame. -/
def Obligations.OneClaimPerCompletion : Prop :=
  ∀ (s : State) (first : Instr) (between : List Instr) (t : State) (rs : List Word),
    (first = .spoll ∨ first = .stake) → (∀ i ∈ between, ∀ c, i ≠ .sfeed c) →
    execAll (first :: between) s = .next (t, rs) →
    (∃ u, exec .spoll t = .next u ∧ u.response = some 0x0000#16) ∧
    exec .stake t = .next { t with response := some 0x0100#16 }

/-- A consumer that polls with STAKE while no frame is ready (60_exceptions.md section 6) gets Wait as often as it
asks, whatever its budget, and changes no register. -/
def Obligations.StakeWaitsWithoutFrame : Prop :=
  ∀ (s : State) (n : Nat), s.sfp.ready = false →
    ∃ t : State, execAll (List.replicate n .stake) s = .next (t, List.replicate n 0x0100#16) ∧
      t.sfp = s.sfp ∧ t.gfa = s.gfa ∧ t.cku = s.cku

/-- Who writes the servo parser's registers (10_state.md section 1): the transient state only SFEED and SCLR, each
frame register only the SFEED that accepts its byte. -/
def Obligations.ServoRegisterWriters : Prop :=
  ∀ (i : Instr) (s t : State), exec i s = .next t →
    ((∀ b, i ≠ .sfeed b) → i ≠ .sclr →
      t.sfp.sstate = s.sfp.sstate ∧ t.sfp.shcnt = s.sfp.shcnt ∧ t.sfp.sbcnt = s.sfp.sbcnt ∧
        t.sfp.spcnt = s.sfp.spcnt) ∧
    (t.sfp.rxId ≠ s.sfp.rxId →
      s.sfp.sstate = .readId ∧ i = .sfeed t.sfp.rxId ∧ t.sfp.rxId.toNat ≤ 254) ∧
    (t.sfp.rxLen ≠ s.sfp.rxLen →
      s.sfp.sstate = .readLength ∧ i = .sfeed t.sfp.rxLen ∧ 3 ≤ t.sfp.rxLen.toNat ∧ t.sfp.rxLen.toNat ≤ 7) ∧
    (t.sfp.rxCmd ≠ s.sfp.rxCmd →
      s.sfp.sstate = .readCommand ∧ i = .sfeed t.sfp.rxCmd ∧ 1 ≤ t.sfp.rxCmd.toNat ∧
        t.sfp.rxCmd.toNat ≤ 0x36) ∧
    (∀ k : Fin 4, t.sfp.rxP[k] ≠ s.sfp.rxP[k] →
      s.sfp.sstate = .readParams ∧ s.sfp.spcnt.toNat = k.val ∧ i = .sfeed t.sfp.rxP[k]) ∧
    (t.sfp.rxCks ≠ s.sfp.rxCks → s.sfp.sstate = .readChecksum ∧ i = .sfeed t.sfp.rxCks) ∧
    (t.sfp.rxCkcalc ≠ s.sfp.rxCkcalc → s.sfp.sstate = .readChecksum ∧ ∃ b, i = .sfeed b)

/-- The units share no register (10_state.md R17, 40_checksum.md R79): the servo parser's ops leave the gyro
accumulator and the checksum unit alone, the checksum ops leave both parsers alone, and RREAD writes nothing. -/
def Obligations.UnitsShareNoRegister : Prop :=
  (∀ (i : Instr) (s t : State), ((∃ b, i = .sfeed b) ∨ i = .spoll ∨ i = .stake ∨ i = .sclr) →
    exec i s = .next t → t.gfa = s.gfa ∧ t.cku = s.cku) ∧
  (∀ (i : Instr) (s t : State), (i = .ckclr ∨ (∃ b, i = .ckacc b) ∨ ∃ b, i = .ckval b) →
    exec i s = .next t → t.sfp = s.sfp ∧ t.gfa = s.gfa) ∧
  (∀ (a : Byte) (s t : State), exec (.rread a) s = .next t →
    t.sfp = s.sfp ∧ t.gfa = s.gfa ∧ t.cku = s.cku) ∧
  (∀ (i : Instr) (s : State) (c : Word), ((∃ b, i = .sfeed b) ∨ i = .spoll ∨ i = .stake ∨ i = .sclr) →
    ∀ t, exec i s = .next t →
      exec i { s with cku := { ckacc := c } } = .next { t with cku := { ckacc := c } })

/-! ## Register access -/

/-- R118 with the map of R42 and the unmapped addresses of R44: what RREAD answers at every address, and that it
changes no state. -/
def Obligations.RreadReadsTheRegisterMap : Prop :=
  (∀ a : Byte, decode (0x40#8 ++ a) = .op (.rread a)) ∧
  ∀ s : State,
    exec (.rread 0x00#8) s =
      .next { s with response := some (0x00#8 ++ (0#1 ++ (match s.sfp.sstate with
        | .awaitHeader1 => 0#3 | .awaitHeader2 => 1#3 | .readId => 2#3 | .readLength => 3#3
        | .readCommand => 4#3 | .readParams => 5#3 | .readChecksum => 6#3 | .done => 7#3) ++ 0#2 ++
        (if s.sfp.ckok then 1#1 else 0#1) ++ (if s.sfp.ready then 1#1 else 0#1))) } ∧
    exec (.rread 0x01#8) s = .next { s with response := some (BitVec.ofNat 16 s.sfp.shcnt.toNat) } ∧
    exec (.rread 0x02#8) s = .next { s with response := some (BitVec.ofNat 16 s.sfp.sbcnt.toNat) } ∧
    exec (.rread 0x03#8) s = .next { s with response := some (BitVec.ofNat 16 s.sfp.spcnt.toNat) } ∧
    exec (.rread 0x04#8) s = .next { s with response := some (0x00#8 ++ s.sfp.rxId) } ∧
    exec (.rread 0x05#8) s = .next { s with response := some (0x00#8 ++ s.sfp.rxLen) } ∧
    exec (.rread 0x06#8) s = .next { s with response := some (0x00#8 ++ s.sfp.rxCmd) } ∧
    (∀ k : Fin 4, exec (.rread (BitVec.ofNat 8 (0x07 + k.val))) s =
      .next { s with response := some (0x00#8 ++ s.sfp.rxP[k]) }) ∧
    exec (.rread 0x0B#8) s = .next { s with response := some (0x00#8 ++ s.sfp.rxCks) } ∧
    exec (.rread 0x0C#8) s = .next { s with response := some (0x00#8 ++ s.sfp.rxCkcalc) } ∧
    exec (.rread 0x10#8) s = .next { s with response := some (BitVec.ofNat 16 s.gfa.gidx.toNat) } ∧
    (∀ k : Fin 8, exec (.rread (BitVec.ofNat 8 (0x20 + k.val))) s =
      .next { s with response := some (0x00#8 ++ s.gfa.acc[k]) }) ∧
    (∀ k : Fin 8, exec (.rread (BitVec.ofNat 8 (0x28 + k.val))) s =
      .next { s with response := some (0x00#8 ++ s.gfa.arate[k]) }) ∧
    (∀ k : Fin 8, exec (.rread (BitVec.ofNat 8 (0x30 + k.val))) s =
      .next { s with response := some (0x00#8 ++ s.gfa.angle[k]) }) ∧
    (∀ k : Fin 11, exec (.rread (BitVec.ofNat 8 (0x40 + k.val))) s =
      .next { s with response := some (0x00#8 ++ s.gfa.gbuf[k]) }) ∧
    exec (.rread 0x50#8) s = .next { s with response := some (0x00#8 ++ s.cku.ckacc.extractLsb' 0 8) } ∧
    exec (.rread 0x51#8) s = .next { s with response := some (0x00#8 ++ s.cku.ckacc.extractLsb' 8 8) } ∧
    exec (.rread 0x52#8) s = .next { s with response := some (0x00#8 ++ ~~~(s.cku.ckacc.extractLsb' 0 8)) } ∧
    (∀ a : Byte, ((0x0D ≤ a.toNat ∧ a.toNat ≤ 0x0F) ∨ (0x11 ≤ a.toNat ∧ a.toNat ≤ 0x1F) ∨
        (0x38 ≤ a.toNat ∧ a.toNat ≤ 0x3F) ∨ (0x4B ≤ a.toNat ∧ a.toNat ≤ 0x4F) ∨ 0x53 ≤ a.toNat) →
      exec (.rread a) s = .next { s with response := some 0x0F00#16 })

/-! ## The whole machine -/

/-- The invariants of 10_state.md (R28, R29, R33, the ranges of R22) hold at reset. -/
def Obligations.InvariantsHoldAtReset : Prop := State.reset.Inv

/-- Every step keeps the invariants of 10_state.md: whatever the agents have issued, legal or not, in whatever
order, with resets anywhere between. -/
def Obligations.EveryStepKeepsInvariants : Prop :=
  ∀ s t : State, s.Inv → step s = .next t → t.Inv

/-- No stuck state (60_exceptions.md section 1): in every state that meets the invariants every op word has a
response, and every step a next state. -/
def Obligations.EveryOpHasAResponse : Prop :=
  (∀ (w : Word) (s : State), s.Inv → ∃ t, perform w s = .next t ∧ t.response ≠ none) ∧
  (∀ s : State, s.Inv → ∃ t, step s = .next t)

/-- Any number of steps, from any state that meets the invariants, ends in a next state that meets them: no fault
and no refusal is ever reached. -/
def Obligations.NoRunStops : Prop :=
  ∀ (n : Nat) (s : State), s.Inv → ∃ t : State, Host.Core.run core n s = .next t ∧ t.Inv
end

