-- ==== Sys2Proof/Laws/Decode.lean ====
section
/-!
SUPPORT. The two fields of an op word (R59) as numbers: each is read back from the word built of it, and a word is
its fields.
-/

namespace Sys2Proof

/-- Two bytes side by side, as a number. -/
theorem toNat_byte_append (a b : Byte) : (a ++ b : Word).toNat = a.toNat * 256 + b.toNat := by
  have h : (a ++ b : Word).toNat = a.toNat <<< 8 ||| b.toNat := BitVec.toNat_append a b
  rw [h, ← Nat.shiftLeft_add_eq_or_of_lt b.isLt, Nat.shiftLeft_eq]

theorem toNat_opcOf (w : Word) : (opcOf w).toNat = w.toNat / 256 := by
  have := w.isLt
  simp only [opcOf, BitVec.extractLsb'_toNat, Nat.shiftRight_eq_div_pow]
  omega

theorem toNat_opndOf (w : Word) : (opndOf w).toNat = w.toNat % 256 := by
  simp [opndOf, BitVec.extractLsb'_toNat]

@[simp] theorem opcOf_append (opc opnd : Byte) : opcOf (opc ++ opnd) = opc := by
  apply BitVec.eq_of_toNat_eq
  have := opnd.isLt
  rw [toNat_opcOf, toNat_byte_append]
  omega

@[simp] theorem opndOf_append (opc opnd : Byte) : opndOf (opc ++ opnd) = opnd := by
  apply BitVec.eq_of_toNat_eq
  have := opnd.isLt
  rw [toNat_opndOf, toNat_byte_append]
  omega

/-- A word is the concatenation of its two fields. -/
theorem append_fields (w : Word) : opcOf w ++ opndOf w = w := by
  apply BitVec.eq_of_toNat_eq
  rw [toNat_byte_append, toNat_opcOf, toNat_opndOf]
  omega

/-- An op without an operand decodes only with OPND = 0x00 (R64). -/
theorem decodeBare_eq_op {i j : Instr} {opnd : Byte} : decodeBare i opnd = .op j ↔ opnd = 0x00#8 ∧ i = j := by
  unfold decodeBare
  split <;> simp_all

end Sys2Proof
end

