-- ==== Sys2Proof/Laws/State.lean ====
section
/-!
SUPPORT. One lemma per field per named update of the state, each true by definition, so that no proof unfolds a
record update; and the parameters' values.
-/

namespace Sys2Proof.Machine

/-! ## Parameters

`params` is an abbrev, so simp sees the values by itself; omega does not, and these rewrite for it. -/

theorem params_gSync : params.gSync = 0x55#8 := rfl
theorem params_gFrameLen : params.gFrameLen = 11 := rfl
theorem params_gStAcc : params.gStAcc = 0x51#8 := rfl
theorem params_gStArate : params.gStArate = 0x52#8 := rfl
theorem params_gStAngle : params.gStAngle = 0x53#8 := rfl
theorem params_gPayloadLo : params.gPayloadLo = 2 := rfl
theorem params_gPayloadHi : params.gPayloadHi = 9 := rfl
theorem params_sSync : params.sSync = 0x55#8 := rfl
theorem params_sIdMax : params.sIdMax = 254#8 := rfl
theorem params_sIdBcast : params.sIdBcast = 254#8 := rfl
theorem params_sLenMin : params.sLenMin = 3#8 := rfl
theorem params_sLenMax : params.sLenMax = 7#8 := rfl
theorem params_sCmdMin : params.sCmdMin = 1#8 := rfl
theorem params_sCmdMax : params.sCmdMax = 0x36#8 := rfl
theorem params_sNparamMax : params.sNparamMax = 4 := rfl
theorem params_ckAccWidth : params.ckAccWidth = 16 := rfl
theorem params_payloadLen : params.payloadLen = 8 := rfl

/-- The defaults of R5 fit together. -/
theorem params_coherent : params.coherent = true := by decide

/-! ## State: ending an op -/

@[simp] theorem State.answer_sfp (s : State) (a : Answer) : (s.answer a).sfp = s.sfp := rfl
@[simp] theorem State.answer_gfa (s : State) (a : Answer) : (s.answer a).gfa = s.gfa := rfl
@[simp] theorem State.answer_cku (s : State) (a : Answer) : (s.answer a).cku = s.cku := rfl
@[simp] theorem State.answer_lines (s : State) (a : Answer) : (s.answer a).lines = s.lines := rfl
@[simp] theorem State.answer_schedule (s : State) (a : Answer) : (s.answer a).schedule = s.schedule := rfl
@[simp] theorem State.answer_issuer (s : State) (a : Answer) : (s.answer a).issuer = s.issuer := rfl
@[simp] theorem State.answer_response (s : State) (a : Answer) : (s.answer a).response = some (respond a.status a.data) := rfl

@[simp] theorem State.finishSfp_sfp (s : State) (r : Sfp × Answer) : (s.finishSfp r).sfp = r.1 := rfl
@[simp] theorem State.finishSfp_gfa (s : State) (r : Sfp × Answer) : (s.finishSfp r).gfa = s.gfa := rfl
@[simp] theorem State.finishSfp_cku (s : State) (r : Sfp × Answer) : (s.finishSfp r).cku = s.cku := rfl
@[simp] theorem State.finishSfp_lines (s : State) (r : Sfp × Answer) : (s.finishSfp r).lines = s.lines := rfl
@[simp] theorem State.finishSfp_schedule (s : State) (r : Sfp × Answer) : (s.finishSfp r).schedule = s.schedule := rfl
@[simp] theorem State.finishSfp_issuer (s : State) (r : Sfp × Answer) : (s.finishSfp r).issuer = s.issuer := rfl
@[simp] theorem State.finishSfp_response (s : State) (r : Sfp × Answer) : (s.finishSfp r).response = some (respond r.2.status r.2.data) := rfl

@[simp] theorem State.finishGfa_sfp (s : State) (r : Gfa × Answer) : (s.finishGfa r).sfp = s.sfp := rfl
@[simp] theorem State.finishGfa_gfa (s : State) (r : Gfa × Answer) : (s.finishGfa r).gfa = r.1 := rfl
@[simp] theorem State.finishGfa_cku (s : State) (r : Gfa × Answer) : (s.finishGfa r).cku = s.cku := rfl
@[simp] theorem State.finishGfa_lines (s : State) (r : Gfa × Answer) : (s.finishGfa r).lines = s.lines := rfl
@[simp] theorem State.finishGfa_schedule (s : State) (r : Gfa × Answer) : (s.finishGfa r).schedule = s.schedule := rfl
@[simp] theorem State.finishGfa_issuer (s : State) (r : Gfa × Answer) : (s.finishGfa r).issuer = s.issuer := rfl
@[simp] theorem State.finishGfa_response (s : State) (r : Gfa × Answer) : (s.finishGfa r).response = some (respond r.2.status r.2.data) := rfl

@[simp] theorem State.finishCku_sfp (s : State) (r : Cku × Answer) : (s.finishCku r).sfp = s.sfp := rfl
@[simp] theorem State.finishCku_gfa (s : State) (r : Cku × Answer) : (s.finishCku r).gfa = s.gfa := rfl
@[simp] theorem State.finishCku_cku (s : State) (r : Cku × Answer) : (s.finishCku r).cku = r.1 := rfl
@[simp] theorem State.finishCku_lines (s : State) (r : Cku × Answer) : (s.finishCku r).lines = s.lines := rfl
@[simp] theorem State.finishCku_schedule (s : State) (r : Cku × Answer) : (s.finishCku r).schedule = s.schedule := rfl
@[simp] theorem State.finishCku_issuer (s : State) (r : Cku × Answer) : (s.finishCku r).issuer = s.issuer := rfl
@[simp] theorem State.finishCku_response (s : State) (r : Cku × Answer) : (s.finishCku r).response = some (respond r.2.status r.2.data) := rfl

/-! ## State: steps that perform no op -/

@[simp] theorem State.quiet_sfp (s : State) : (s.quiet).sfp = s.sfp := rfl
@[simp] theorem State.quiet_gfa (s : State) : (s.quiet).gfa = s.gfa := rfl
@[simp] theorem State.quiet_cku (s : State) : (s.quiet).cku = s.cku := rfl
@[simp] theorem State.quiet_lines (s : State) : (s.quiet).lines = s.lines := rfl
@[simp] theorem State.quiet_schedule (s : State) : (s.quiet).schedule = s.schedule := rfl
@[simp] theorem State.quiet_issuer (s : State) : (s.quiet).issuer = none := rfl
@[simp] theorem State.quiet_response (s : State) : (s.quiet).response = none := rfl

@[simp] theorem State.resetRegisters_sfp (s : State) : (s.resetRegisters).sfp = Sfp.reset := rfl
@[simp] theorem State.resetRegisters_gfa (s : State) : (s.resetRegisters).gfa = Gfa.reset := rfl
@[simp] theorem State.resetRegisters_cku (s : State) : (s.resetRegisters).cku = Cku.reset := rfl
@[simp] theorem State.resetRegisters_lines (s : State) : (s.resetRegisters).lines = s.lines := rfl
@[simp] theorem State.resetRegisters_schedule (s : State) : (s.resetRegisters).schedule = s.schedule := rfl
@[simp] theorem State.resetRegisters_issuer (s : State) : (s.resetRegisters).issuer = none := rfl
@[simp] theorem State.resetRegisters_response (s : State) : (s.resetRegisters).response = none := rfl

@[simp] theorem State.placeOp_sfp (s : State) (w : Word) : (s.placeOp w).sfp = s.sfp := rfl
@[simp] theorem State.placeOp_gfa (s : State) (w : Word) : (s.placeOp w).gfa = s.gfa := rfl
@[simp] theorem State.placeOp_cku (s : State) (w : Word) : (s.placeOp w).cku = s.cku := rfl
@[simp] theorem State.placeOp_lines (s : State) (w : Word) : (s.placeOp w).lines = { s.lines with con := w :: s.lines.con } := rfl
@[simp] theorem State.placeOp_schedule (s : State) (w : Word) : (s.placeOp w).schedule = .turn .con :: s.schedule := rfl
@[simp] theorem State.placeOp_issuer (s : State) (w : Word) : (s.placeOp w).issuer = s.issuer := rfl
@[simp] theorem State.placeOp_response (s : State) (w : Word) : (s.placeOp w).response = s.response := rfl

@[simp] theorem State.serving_sfp (s : State) (a : Agent) (ws : List Word) : (s.serving a ws).sfp = s.sfp := rfl
@[simp] theorem State.serving_gfa (s : State) (a : Agent) (ws : List Word) : (s.serving a ws).gfa = s.gfa := rfl
@[simp] theorem State.serving_cku (s : State) (a : Agent) (ws : List Word) : (s.serving a ws).cku = s.cku := rfl
@[simp] theorem State.serving_lines (s : State) (a : Agent) (ws : List Word) : (s.serving a ws).lines = setLine s.lines ws a := rfl
@[simp] theorem State.serving_schedule (s : State) (a : Agent) (ws : List Word) : (s.serving a ws).schedule = s.schedule := rfl
@[simp] theorem State.serving_issuer (s : State) (a : Agent) (ws : List Word) : (s.serving a ws).issuer = some a := rfl
@[simp] theorem State.serving_response (s : State) (a : Agent) (ws : List Word) : (s.serving a ws).response = none := rfl

@[simp] theorem serveReset_sfp (g r : Bool) (s : State) :
    (serveReset g r s).sfp = Sfp.reset := rfl
@[simp] theorem serveReset_gfa (g r : Bool) (s : State) :
    (serveReset g r s).gfa = Gfa.reset := rfl
@[simp] theorem serveReset_cku (g r : Bool) (s : State) :
    (serveReset g r s).cku = Cku.reset := rfl
@[simp] theorem serveReset_lines (g r : Bool) (s : State) :
    (serveReset g r s).lines = { s.lines with rxg := loseHead g s.lines.rxg, rxs := loseHead r s.lines.rxs } := rfl
@[simp] theorem serveReset_schedule (g r : Bool) (s : State) :
    (serveReset g r s).schedule = s.schedule := rfl
@[simp] theorem serveReset_issuer (g r : Bool) (s : State) :
    (serveReset g r s).issuer = none := rfl
@[simp] theorem serveReset_response (g r : Bool) (s : State) :
    (serveReset g r s).response = none := rfl

/-! ## Servo frame parser -/

@[simp] theorem Sfp.clearTransient_sstate (p : Sfp) : (p.clearTransient).sstate = .awaitHeader1 := rfl
@[simp] theorem Sfp.clearTransient_shcnt (p : Sfp) : (p.clearTransient).shcnt = 0#2 := rfl
@[simp] theorem Sfp.clearTransient_sbcnt (p : Sfp) : (p.clearTransient).sbcnt = 0#4 := rfl
@[simp] theorem Sfp.clearTransient_spcnt (p : Sfp) : (p.clearTransient).spcnt = 0#3 := rfl
@[simp] theorem Sfp.clearTransient_rxId (p : Sfp) : (p.clearTransient).rxId = p.rxId := rfl
@[simp] theorem Sfp.clearTransient_rxLen (p : Sfp) : (p.clearTransient).rxLen = p.rxLen := rfl
@[simp] theorem Sfp.clearTransient_rxCmd (p : Sfp) : (p.clearTransient).rxCmd = p.rxCmd := rfl
@[simp] theorem Sfp.clearTransient_rxP (p : Sfp) : (p.clearTransient).rxP = p.rxP := rfl
@[simp] theorem Sfp.clearTransient_rxCks (p : Sfp) : (p.clearTransient).rxCks = p.rxCks := rfl
@[simp] theorem Sfp.clearTransient_rxCkcalc (p : Sfp) : (p.clearTransient).rxCkcalc = p.rxCkcalc := rfl
@[simp] theorem Sfp.clearTransient_ready (p : Sfp) : (p.clearTransient).ready = p.ready := rfl
@[simp] theorem Sfp.clearTransient_ckok (p : Sfp) : (p.clearTransient).ckok = p.ckok := rfl

@[simp] theorem Sfp.clearReady_sstate (p : Sfp) : (p.clearReady).sstate = p.sstate := rfl
@[simp] theorem Sfp.clearReady_shcnt (p : Sfp) : (p.clearReady).shcnt = p.shcnt := rfl
@[simp] theorem Sfp.clearReady_sbcnt (p : Sfp) : (p.clearReady).sbcnt = p.sbcnt := rfl
@[simp] theorem Sfp.clearReady_spcnt (p : Sfp) : (p.clearReady).spcnt = p.spcnt := rfl
@[simp] theorem Sfp.clearReady_rxId (p : Sfp) : (p.clearReady).rxId = p.rxId := rfl
@[simp] theorem Sfp.clearReady_rxLen (p : Sfp) : (p.clearReady).rxLen = p.rxLen := rfl
@[simp] theorem Sfp.clearReady_rxCmd (p : Sfp) : (p.clearReady).rxCmd = p.rxCmd := rfl
@[simp] theorem Sfp.clearReady_rxP (p : Sfp) : (p.clearReady).rxP = p.rxP := rfl
@[simp] theorem Sfp.clearReady_rxCks (p : Sfp) : (p.clearReady).rxCks = p.rxCks := rfl
@[simp] theorem Sfp.clearReady_rxCkcalc (p : Sfp) : (p.clearReady).rxCkcalc = p.rxCkcalc := rfl
@[simp] theorem Sfp.clearReady_ready (p : Sfp) : (p.clearReady).ready = false := rfl
@[simp] theorem Sfp.clearReady_ckok (p : Sfp) : (p.clearReady).ckok = p.ckok := rfl

@[simp] theorem Sfp.recordVerdict_sstate (p : Sfp) : (p.recordVerdict).sstate = p.sstate := rfl
@[simp] theorem Sfp.recordVerdict_shcnt (p : Sfp) : (p.recordVerdict).shcnt = p.shcnt := rfl
@[simp] theorem Sfp.recordVerdict_sbcnt (p : Sfp) : (p.recordVerdict).sbcnt = p.sbcnt := rfl
@[simp] theorem Sfp.recordVerdict_spcnt (p : Sfp) : (p.recordVerdict).spcnt = p.spcnt := rfl
@[simp] theorem Sfp.recordVerdict_rxId (p : Sfp) : (p.recordVerdict).rxId = p.rxId := rfl
@[simp] theorem Sfp.recordVerdict_rxLen (p : Sfp) : (p.recordVerdict).rxLen = p.rxLen := rfl
@[simp] theorem Sfp.recordVerdict_rxCmd (p : Sfp) : (p.recordVerdict).rxCmd = p.rxCmd := rfl
@[simp] theorem Sfp.recordVerdict_rxP (p : Sfp) : (p.recordVerdict).rxP = p.rxP := rfl
@[simp] theorem Sfp.recordVerdict_rxCks (p : Sfp) : (p.recordVerdict).rxCks = p.rxCks := rfl
@[simp] theorem Sfp.recordVerdict_rxCkcalc (p : Sfp) : (p.recordVerdict).rxCkcalc = cks p.fields := rfl
@[simp] theorem Sfp.recordVerdict_ready (p : Sfp) : (p.recordVerdict).ready = true := rfl
@[simp] theorem Sfp.recordVerdict_ckok (p : Sfp) : (p.recordVerdict).ckok = (p.rxCks == cks p.fields) := rfl

/-! ## Gyro frame accumulator -/

@[simp] theorem Gfa.store_gidx (g : Gfa) (b : Byte) : (g.store b).gidx = g.gidx + 1#4 := rfl
@[simp] theorem Gfa.store_gbuf (g : Gfa) (b : Byte) : (g.store b).gbuf = g.gbuf.setIfInBounds g.gidx.toNat b := rfl
@[simp] theorem Gfa.store_acc (g : Gfa) (b : Byte) : (g.store b).acc = g.acc := rfl
@[simp] theorem Gfa.store_arate (g : Gfa) (b : Byte) : (g.store b).arate = g.arate := rfl
@[simp] theorem Gfa.store_angle (g : Gfa) (b : Byte) : (g.store b).angle = g.angle := rfl

end Sys2Proof.Machine
end

