-- ==== Sys2Proof/Laws/Ops.lean ====
section
/-!
SUPPORT. For each shared operation, what it can do, said once: the checksum function, the fault checks, the feeds of
the two parsers and the ops over them. Proofs cite these and do not unfold the operations.
-/

namespace Sys2Proof.Machine

/-! ## Responses -/

/-- The response words of each status (R60, R61). -/
theorem respond_ok (d : Byte) : respond .ok d = 0x00#8 ++ d := rfl
theorem respond_incomplete (d : Byte) : respond .incomplete d = 0x01#8 ++ d := rfl
theorem respond_complete (d : Byte) : respond .complete d = 0x02#8 ++ d := rfl
theorem respond_rejected (d : Byte) : respond .rejected d = 0x03#8 ++ d := rfl
theorem respond_illegal (d : Byte) : respond .illegal d = 0x0F#8 ++ d := rfl

/-- The response words of R121's outcomes. -/
@[simp] theorem respond_ok_00 : respond .ok 0x00#8 = 0x0000#16 := by decide
@[simp] theorem respond_ok_01 : respond .ok 0x01#8 = 0x0001#16 := by decide
@[simp] theorem respond_incomplete_00 : respond .incomplete 0x00#8 = 0x0100#16 := by decide
@[simp] theorem respond_complete_00 : respond .complete 0x00#8 = 0x0200#16 := by decide
@[simp] theorem respond_complete_51 : respond .complete 0x51#8 = 0x0251#16 := by decide
@[simp] theorem respond_complete_52 : respond .complete 0x52#8 = 0x0252#16 := by decide
@[simp] theorem respond_complete_53 : respond .complete 0x53#8 = 0x0253#16 := by decide
@[simp] theorem respond_rejected_00 : respond .rejected 0x00#8 = 0x0300#16 := by decide
@[simp] theorem respond_rejected_01 : respond .rejected 0x01#8 = 0x0301#16 := by decide
@[simp] theorem respond_rejected_02 : respond .rejected 0x02#8 = 0x0302#16 := by decide
@[simp] theorem respond_rejected_03 : respond .rejected 0x03#8 = 0x0303#16 := by decide
@[simp] theorem respond_rejected_04 : respond .rejected 0x04#8 = 0x0304#16 := by decide
@[simp] theorem respond_illegal_00 : respond .illegal 0x00#8 = 0x0F00#16 := by decide

/-- A response word names its status and its data. -/
theorem respond_inj {st st' : Status} {d d' : Byte} (h : respond st d = respond st' d') : st = st' ∧ d = d' := by
  have hn : (respond st d).toNat = (respond st' d').toNat := congrArg _ h
  have := d.isLt
  have := d'.isLt
  have hd : d = d' := by
    apply BitVec.eq_of_toNat_eq
    cases st <;> cases st' <;>
      simp only [respond_ok, respond_incomplete, respond_complete, respond_rejected, respond_illegal,
        toNat_byte_append, BitVec.toNat_ofNat] at hn <;> omega
  subst hd
  refine ⟨?_, rfl⟩
  cases st <;> cases st' <;>
    simp only [respond_ok, respond_incomplete, respond_complete, respond_rejected, respond_illegal,
      toNat_byte_append, BitVec.toNat_ofNat, reduceCtorEq] at hn ⊢ <;> omega

/-! ## The checksum function -/

/-- CKS as a number: the inverted low byte of the sum (R80). -/
theorem toNat_cks (bs : List Byte) : (cks bs).toNat = 255 - byteSum bs % 256 := by
  have h : cks bs = (~~~(BitVec.ofNat 16 (byteSum bs))).extractLsb' 0 8 := rfl
  rw [h, BitVec.extractLsb'_toNat, BitVec.toNat_not, BitVec.toNat_ofNat]
  simp only [Nat.shiftRight_zero]
  omega

/-- CKS depends on the sum modulo 256 alone. -/
theorem cks_eq_of_sum {bs cs : List Byte} (h : byteSum bs % 256 = byteSum cs % 256) : cks bs = cks cs := by
  apply BitVec.eq_of_toNat_eq
  rw [toNat_cks, toNat_cks, h]

@[simp] theorem byteSum_nil : byteSum [] = 0 := rfl

@[simp] theorem byteSum_cons (b : Byte) (bs : List Byte) : byteSum (b :: bs) = b.toNat + byteSum bs := rfl

@[simp] theorem byteSum_append (bs cs : List Byte) : byteSum (bs ++ cs) = byteSum bs + byteSum cs := by
  simp [byteSum]

/-- The generated checksum of an accumulator that holds a sum is CKS of the bytes summed (R34, R80). -/
theorem ckres_ofNat (bs : List Byte) : ckres (BitVec.ofNat 16 (byteSum bs)) = cks bs := rfl

/-! ## Register files -/

theorem byteAt_eq {n : Nat} (v : Vector Byte n) (k : Nat) (h : k < n) : byteAt v k = v[k] := by
  simp [byteAt, h, List.getD_eq_getElem?_getD]

/-! ## Servo frame parser -/

/-- An accepted length, as a number (R73). -/
theorem Sfp.lenLegal_iff (p : Sfp) : p.lenLegal = true ↔ 3 ≤ p.rxLen.toNat ∧ p.rxLen.toNat ≤ 7 := by
  simp [Sfp.lenLegal, BitVec.le_def]

/-- When SFEED does not fault. -/
theorem Sfp.feedFault_eq_none (p : Sfp) :
    p.feedFault = none ↔
      p.sstate ≠ .done ∧ (p.lenAccepted = true → p.lenLegal = true) ∧ p.countersAgree = true := by
  unfold Sfp.feedFault
  split
  · simp_all
  · split
    · simp_all
    · split <;> simp_all

/-- The invariant rules every fault of SFEED out. -/
theorem Sfp.feedFault_of_inv {p : Sfp} (h : p.Inv) : p.feedFault = none := by
  obtain ⟨hc, hf, -⟩ := h
  rw [Sfp.feedFault_eq_none]
  refine ⟨?_, ?_, hc⟩
  · intro hd
    simp [Sfp.countersAgree, hd] at hc
  · intro ha
    unfold Sfp.lenAccepted at ha
    unfold Sfp.fieldsLegal at hf
    split at ha <;> simp_all

/-- SFEED's next state, if it has one. -/
theorem exec_sfeed_next {b : Byte} {s t : State} :
    exec (.sfeed b) s = .next t ↔ s.sfp.feedFault = none ∧ s.finishSfp (s.sfp.feed b) = t := by
  cases h : s.sfp.feedFault <;> simp [exec, execSfeed, h]

/-- SFEED runs in every state that meets the invariant. -/
theorem exec_sfeed_of_inv {s : State} (h : s.sfp.Inv) (b : Byte) :
    exec (.sfeed b) s = .next (s.finishSfp (s.sfp.feed b)) :=
  exec_sfeed_next.mpr ⟨Sfp.feedFault_of_inv h, rfl⟩

/-- STAKE's next state, if it has one (R112). -/
theorem exec_stake_next {s t : State} :
    exec .stake s = .next t ↔
      (s.sfp.ready = false ∧ s.answer incomplete = t) ∨
      (s.sfp.ready = true ∧ s.sfp.lenLegal = true ∧
        s.finishSfp (s.sfp.clearReady, ⟨if s.sfp.valid then .complete else .rejected, 0x00#8⟩) = t) := by
  cases hr : s.sfp.ready <;> cases hl : s.sfp.lenLegal <;> simp [exec, execStake, hr, hl]

theorem exec_spoll_next {s t : State} :
    exec .spoll s = .next t ↔ s.finishSfp (s.sfp.clearReady, ⟨.ok, flagByte s.sfp.ready⟩) = t := by
  simp [exec, execSpoll]

theorem exec_sclr_next {s t : State} :
    exec .sclr s = .next t ↔ s.finishSfp (s.sfp.clearTransient, ⟨.ok, 0x00#8⟩) = t := by
  simp [exec, execSclr]

/-! ## Gyro frame accumulator -/

/-- GFEED's next state, if it has one. -/
theorem exec_gfeed_next {b : Byte} {s t : State} :
    exec (.gfeed b) s = .next t ↔ s.gfa.gidx.toNat < 11 ∧ s.finishGfa (s.gfa.feed b) = t := by
  by_cases h : 11 ≤ s.gfa.gidx.toNat
  · have h' : ¬s.gfa.gidx.toNat < 11 := by omega
    simp [exec, execGfeed, h, h']
  · have h' : s.gfa.gidx.toNat < 11 := by omega
    simp [exec, execGfeed, h, h']

/-- GFEED runs in every state that meets the invariant. -/
theorem exec_gfeed_of_inv {s : State} (h : s.gfa.Inv) (b : Byte) :
    exec (.gfeed b) s = .next (s.finishGfa (s.gfa.feed b)) :=
  exec_gfeed_next.mpr ⟨h.1, rfl⟩

/-- What one byte can do to the accumulator (R89): a bad sync, one more byte, or a whole frame. -/
theorem Gfa.feed_cases (g : Gfa) (b : Byte) :
    (byteAt (g.store b).gbuf 0 ≠ 0x55#8 ∧
      g.feed b = ({ g.store b with gidx := 0#4 }, ⟨.rejected, 0x01#8⟩)) ∨
    (byteAt (g.store b).gbuf 0 = 0x55#8 ∧ (g.gidx + 1#4).toNat < 11 ∧
      g.feed b = (g.store b, ⟨.incomplete, (g.gidx + 1#4).setWidth 8⟩)) ∨
    (byteAt (g.store b).gbuf 0 = 0x55#8 ∧ 11 ≤ (g.gidx + 1#4).toNat ∧ g.feed b = (g.store b).dispatch) := by
  by_cases h0 : byteAt (g.store b).gbuf 0 = 0x55#8
  · by_cases h1 : (g.gidx + 1#4).toNat < 11
    · exact .inr (.inl ⟨h0, h1, (if_neg (not_not.mpr h0)).trans (if_pos h1)⟩)
    · exact .inr (.inr ⟨h0, Nat.le_of_not_lt h1, (if_neg (not_not.mpr h0)).trans (if_neg h1)⟩)
  · exact .inl ⟨h0, if_pos h0⟩

/-- What dispatching a whole frame can do (R93, R94). -/
theorem Gfa.dispatch_cases (g : Gfa) :
    (byteAt g.gbuf 1 = 0x51#8 ∧ g.dispatch = ({ g with gidx := 0#4, acc := g.payload }, ⟨.complete, 0x51#8⟩)) ∨
    (byteAt g.gbuf 1 = 0x52#8 ∧ g.dispatch = ({ g with gidx := 0#4, arate := g.payload }, ⟨.complete, 0x52#8⟩)) ∨
    (byteAt g.gbuf 1 = 0x53#8 ∧ g.dispatch = ({ g with gidx := 0#4, angle := g.payload }, ⟨.complete, 0x53#8⟩)) ∨
    (byteAt g.gbuf 1 ≠ 0x51#8 ∧ byteAt g.gbuf 1 ≠ 0x52#8 ∧ byteAt g.gbuf 1 ≠ 0x53#8 ∧
      g.dispatch = ({ g with gidx := 0#4 }, ⟨.rejected, 0x02#8⟩)) := by
  simp only [Gfa.dispatch]
  by_cases h1 : byteAt g.gbuf 1 = 0x51#8
  · exact .inl ⟨h1, by simp [h1]; rfl⟩
  by_cases h2 : byteAt g.gbuf 1 = 0x52#8
  · exact .inr (.inl ⟨h2, by simp [h2]; rfl⟩)
  by_cases h3 : byteAt g.gbuf 1 = 0x53#8
  · exact .inr (.inr (.inl ⟨h3, by simp [h3]; rfl⟩))
  · exact .inr (.inr (.inr ⟨h1, h2, h3, by simp [h1, h2, h3]⟩))

/-- The payload does not depend on GIDX. -/
theorem Gfa.payload_getElem (g : Gfa) (k : Nat) (h : k < 8) : g.payload[k] = byteAt g.gbuf (2 + k) := by
  simp [Gfa.payload]

/-! ## Checksum unit and register access -/

theorem exec_ckclr_next {s t : State} :
    exec .ckclr s = .next t ↔ s.finishCku ({ ckacc := 0x0000#16 }, ⟨.ok, 0x00#8⟩) = t := by
  simp [exec, execCkclr]

theorem exec_ckacc_next {b : Byte} {s t : State} :
    exec (.ckacc b) s = .next t ↔ s.finishCku ({ ckacc := s.cku.ckacc + b.setWidth 16 }, ⟨.ok, 0x00#8⟩) = t := by
  simp [exec, execCkacc]

theorem exec_ckval_next {b : Byte} {s t : State} :
    exec (.ckval b) s = .next t ↔ s.answer ⟨.ok, flagByte (ckres s.cku.ckacc == b)⟩ = t := by
  simp [exec, execCkval]

/-- RREAD changes nothing but the response (R118). -/
theorem exec_rread_next {a : Byte} {s t : State} :
    exec (.rread a) s = .next t ↔
      s.answer (match regMap s a with | some d => ⟨.ok, d⟩ | none => ⟨.illegal, 0x00#8⟩) = t := by
  cases h : regMap s a <;> simp [exec, execRread, h]

/-! ## Performing a word, and a step -/

/-- An op word is its op's meaning or, when illegal, the one answer (R65). -/
theorem perform_eq (w : Word) (s : State) :
    (∃ i, decode w = .op i ∧ perform w s = exec i s) ∨
    (∃ why, decode w = .illegal why ∧ perform w s = .next (s.answer ⟨.illegal, 0x00#8⟩)) := by
  unfold perform
  split
  · exact .inl ⟨_, by assumption, rfl⟩
  · exact .inr ⟨_, by assumption, rfl⟩

/-- What one step can be: nothing waiting, an agent's turn with nothing issued, an agent's op, or reset. -/
theorem step_cases (s : State) :
    (s.schedule = [] ∧ step s = .next s.quiet) ∨
    (∃ a rest, s.schedule = .turn a :: rest ∧ lineOf s.lines a = [] ∧
      step s = .next (State.quiet { s with schedule := rest })) ∨
    (∃ a rest w ws, s.schedule = .turn a :: rest ∧ lineOf s.lines a = w :: ws ∧
      step s = perform w (State.serving { s with schedule := rest } a ws)) ∨
    (∃ g r rest, s.schedule = .reset g r :: rest ∧ step s = .next (serveReset g r { s with schedule := rest })) := by
  unfold step cycle
  split
  · exact .inl ⟨by assumption, rfl⟩
  · rename_i a rest h
    unfold serveTurn
    split
    · exact .inr (.inl ⟨a, rest, h, by assumption, rfl⟩)
    · exact .inr (.inr (.inl ⟨a, rest, _, _, h, by assumption, rfl⟩))
  · exact .inr (.inr (.inr ⟨_, _, _, by assumption, rfl⟩))

/-! ## Lists of ops -/

/-- One op and then the rest. -/
theorem execAll_cons_next {i : Instr} {is : List Instr} {s t u : State} {rs : List Word}
    (h : exec i s = .next t) (hs : execAll is t = .next (u, rs)) :
    execAll (i :: is) s = .next (u, t.response.toList ++ rs) := by
  simp [execAll, h, hs]

/-- A list of ops that answers a next state is its first op and then the rest. -/
theorem execAll_cons_inv {i : Instr} {is : List Instr} {s u : State} {rs : List Word}
    (h : execAll (i :: is) s = .next (u, rs)) :
    ∃ t qs, exec i s = .next t ∧ execAll is t = .next (u, qs) ∧ rs = t.response.toList ++ qs := by
  cases h1 : exec i s with
  | next t =>
    cases h2 : execAll is t with
    | next r =>
      simp only [execAll, h1, h2, Host.Outcome.next.injEq, Prod.mk.injEq] at h
      exact ⟨t, r.2, rfl, by rw [h2, ← h.1], h.2.symm⟩
    | fault f => simp [execAll, h1, h2] at h
    | refused f => simp [execAll, h1, h2] at h
  | fault f => simp [execAll, h1] at h
  | refused f => simp [execAll, h1] at h

/-- One list of ops and then another: the responses follow each other. -/
theorem execAll_append_next {js : List Instr} {t u : State} {qs : List Word} (hj : execAll js t = .next (u, qs)) :
    ∀ {is : List Instr} {s : State} {rs : List Word}, execAll is s = .next (t, rs) →
      execAll (is ++ js) s = .next (u, rs ++ qs)
  | [], s, rs, h => by
    simp only [execAll, Host.Outcome.next.injEq, Prod.mk.injEq] at h
    obtain ⟨rfl, rfl⟩ := h
    simpa using hj
  | i :: is, s, rs, h => by
    obtain ⟨v, ps, hv, hps, rfl⟩ := execAll_cons_inv h
    rw [List.cons_append, execAll_cons_next hv (execAll_append_next hj hps), List.append_assoc]

/-! ## What a test places -/

/-- The op placed by `withFetchWord` is the one the next step performs. -/
theorem step_withFetchWord (s : State) (nbits w : Nat) :
    step (s.withFetchWord nbits w) =
      perform (tableWord nbits w) { s with issuer := some .con, response := none } := rfl

/-- Replacing one agent's line leaves the others' alone. -/
theorem lineOf_setLine (l : Lines) (ws : List Word) (a b : Agent) :
    lineOf (setLine l ws a) b = if b = a then ws else lineOf l b := by
  cases a <;> cases b <;> rfl

end Sys2Proof.Machine
end

