-- ==== Sys2Proof/Laws/PerInstr.lean ====
section
/-!
SUPPORT. The per-instruction family OpWord: each op's word has the op's OPC and OPND in the fields of R59, and it is
legal by the ranges of R64 and R65.
-/

namespace Sys2Proof.Laws.OpWord

/-- The fields of an op word, and its legality. -/
def Statement (i : Instr) : Prop :=
  opcOf (encode i) = i.opc ∧ opndOf (encode i) = i.opnd ∧ legalOpWord i.opc i.opnd = true

theorem gfeed (b : Byte) : Statement (.gfeed b) := ⟨opcOf_append _ _, opndOf_append _ _, rfl⟩
theorem sfeed (b : Byte) : Statement (.sfeed b) := ⟨opcOf_append _ _, opndOf_append _ _, rfl⟩
theorem spoll : Statement .spoll := ⟨opcOf_append _ _, opndOf_append _ _, rfl⟩
theorem stake : Statement .stake := ⟨opcOf_append _ _, opndOf_append _ _, rfl⟩
theorem sclr : Statement .sclr := ⟨opcOf_append _ _, opndOf_append _ _, rfl⟩
theorem ckclr : Statement .ckclr := ⟨opcOf_append _ _, opndOf_append _ _, rfl⟩
theorem ckacc (b : Byte) : Statement (.ckacc b) := ⟨opcOf_append _ _, opndOf_append _ _, rfl⟩
theorem ckval (b : Byte) : Statement (.ckval b) := ⟨opcOf_append _ _, opndOf_append _ _, rfl⟩
theorem rread (a : Byte) : Statement (.rread a) := ⟨opcOf_append _ _, opndOf_append _ _, rfl⟩

end Sys2Proof.Laws.OpWord
end

