-- ==== Sys2Proof/Tests/Slice0.lean ====
section
/-!
SUPPORT. The model's own tests: expected values come from the vectors and programs of 95_test_vectors.md and from the
rules, never from the model. The theorems `test_witness_<statement>` show, for each statement that has hypotheses, a
concrete state and operands that meet all of them together.
-/

namespace Sys2Proof.Tests

open Sys2Proof.Machine

/-! ## Small states -/

/-- The reset state but for the servo frame parser. -/
def servo (p : Sfp) : State := { State.reset with sfp := p }

/-- The reset state but for the gyro frame accumulator. -/
def gyro (g : Gfa) : State := { State.reset with gfa := g }

/-- The reset state but for the checksum accumulator. -/
def summing (w : Word) : State := { State.reset with cku := { ckacc := w } }

/-- The read-position frame of V-S1 has just completed: fields 01 03 1C, checksum DF. -/
def takenFrame : Sfp :=
  { Sfp.reset with rxId := 0x01#8, rxLen := 0x03#8, rxCmd := 0x1C#8, rxCks := 0xDF#8, rxCkcalc := 0xDF#8,
                   ready := true, ckok := true }

/-- One header byte seen. -/
def inHeader2 : Sfp := { Sfp.reset with sstate := .awaitHeader2, shcnt := 1#2 }

/-- Both header bytes seen. -/
def inId : Sfp := { Sfp.reset with sstate := .readId, shcnt := 2#2, sbcnt := 2#4 }

/-- Header and ID 0x01 seen. -/
def inLength : Sfp := { Sfp.reset with sstate := .readLength, shcnt := 2#2, sbcnt := 3#4, rxId := 0x01#8 }

/-- Header, ID 0x01 and this length byte seen. -/
def inCommand (len : Byte) : Sfp :=
  { Sfp.reset with sstate := .readCommand, shcnt := 2#2, sbcnt := 4#4, rxId := 0x01#8, rxLen := len }

/-- Header, ID 0x01, this length byte, command 0x1C and `n` parameters (zeros) seen. -/
def inParams (len : Byte) (n : Nat) : Sfp :=
  { Sfp.reset with sstate := .readParams, shcnt := 2#2, sbcnt := BitVec.ofNat 4 (5 + n), spcnt := BitVec.ofNat 3 n,
                   rxId := 0x01#8, rxLen := len, rxCmd := 0x1C#8 }

/-- All but the checksum byte of the frame of V-S1 seen. -/
def inChecksum : Sfp :=
  { Sfp.reset with sstate := .readChecksum, shcnt := 2#2, sbcnt := 5#4, rxId := 0x01#8, rxLen := 0x03#8,
                   rxCmd := 0x1C#8 }

/-- All but the checksum byte of the largest frame (V-S3's) seen. -/
def inChecksum7 : Sfp :=
  { Sfp.reset with sstate := .readChecksum, shcnt := 2#2, sbcnt := 9#4, spcnt := 4#3, rxId := 0x01#8,
                   rxLen := 0x07#8, rxCmd := 0x01#8, rxP := #v[0xF4#8, 0x01#8, 0xE8#8, 0x03#8] }

/-- Ten bytes 55 st 64 00 C8 00 2C 01 00 00 of a gyro frame seen (V-G1). -/
def tenBytes (st : Byte) : Gfa :=
  { Gfa.reset with
    gidx := 10#4
    gbuf := #v[0x55#8, st, 0x64#8, 0x00#8, 0xC8#8, 0x00#8, 0x2C#8, 0x01#8, 0x00#8, 0x00#8, 0x00#8] }

/-- The payload of V-G1: the components 100, 200 and 300. -/
def payload123 : Vector Byte 8 := #v[0x64#8, 0x00#8, 0xC8#8, 0x00#8, 0x2C#8, 0x01#8, 0x00#8, 0x00#8]

/-- The response of an op. -/
def reply (i : Instr) (s : State) : Option Word := (nextState? (exec i s)).bind State.response

/-- The responses of a list of ops. -/
def replies (is : List Instr) (s : State) : Option (List Word) := (nextState? (execAll is s)).map Prod.snd

/-- The state after a list of ops. -/
def after (is : List Instr) (s : State) : State := ((nextState? (execAll is s)).map Prod.fst).getD s

/-- The frame of V-S1. -/
def readPosition : ServoFrame := ⟨0x01#8, 0x1C#8, []⟩

/-- The frame of V-S3, the largest. -/
def move : ServoFrame := ⟨0x01#8, 0x01#8, [0xF4#8, 0x01#8, 0xE8#8, 0x03#8]⟩

/-! ## Decoding: words written out bit by bit from R59 and R62 -/

theorem test_decode_gfeed : decode 0b0001000010100101#16 = .op (.gfeed 0xA5#8) := by decide
theorem test_decode_sfeed : decode 0b0010000001010101#16 = .op (.sfeed 0x55#8) := by decide
theorem test_decode_spoll : decode 0b0010000100000000#16 = .op .spoll := by decide
theorem test_decode_stake : decode 0b0010001000000000#16 = .op .stake := by decide
theorem test_decode_sclr : decode 0b0010001100000000#16 = .op .sclr := by decide
theorem test_decode_ckclr : decode 0b0011000000000000#16 = .op .ckclr := by decide
theorem test_decode_ckacc : decode 0b0011000111110100#16 = .op (.ckacc 0xF4#8) := by decide
theorem test_decode_ckval : decode 0b0011001000010110#16 = .op (.ckval 0x16#8) := by decide
theorem test_decode_rread : decode 0b0100000000001011#16 = .op (.rread 0x0B#8) := by decide

/-- V-E1's and V-C8's reserved opcodes. -/
theorem test_decode_reserved :
    decode 0x0000#16 = .illegal .reservedOpc ∧ decode 0x2400#16 = .illegal .reservedOpc ∧
    decode 0x3300#16 = .illegal .reservedOpc ∧ decode 0x4100#16 = .illegal .reservedOpc ∧
    decode 0xFFFF#16 = .illegal .reservedOpc ∧ decode 0x1100#16 = .illegal .reservedOpc ∧
    decode 0x0F55#16 = .illegal .reservedOpc := by decide

/-- V-E1's and V-C8's operands where there must be none. -/
theorem test_decode_operand_not_zero :
    decode 0x2101#16 = .illegal .operandNotZero ∧ decode 0x2201#16 = .illegal .operandNotZero ∧
    decode 0x2380#16 = .illegal .operandNotZero ∧ decode 0x30FF#16 = .illegal .operandNotZero ∧
    decode 0x3001#16 = .illegal .operandNotZero := by decide

/-- The host's numbering: 16 bits as they stand, and fewer bits with zeros above. -/
theorem test_decode_table_word :
    decodeTableWord 16 0x20DF = some (.sfeed 0xDF#8) ∧ decodeTableWord 16 0x2101 = none ∧
    decodeTableWord 8 0x3155 = none := by decide

/-! ## Well-formedness -/

theorem test_wf_word_reserved_opcode : legalOpWord 0x0F#8 0x55#8 = false := by decide
theorem test_wf_word_stray_operand : legalOpWord 0x21#8 0x01#8 = false := by decide
theorem test_wf_word_legal : legalOpWord 0x40#8 0xFF#8 = true := by decide
theorem test_wf_params_parameter_file : ({ params with sNparamMax := 5 } : Config.Params).coherent = false := by decide
theorem test_wf_params_payload : ({ params with gPayloadHi := 11 } : Config.Params).coherent = false := by decide
theorem test_wf_params_gidx_width : ({ params with gFrameLen := 16 } : Config.Params).coherent = false := by decide
theorem test_wf_params_accumulator : ({ params with ckAccWidth := 7 } : Config.Params).coherent = false := by decide
theorem test_wf_sbytes_empty : (Pseudo.sbytes []).wellFormed = false := by decide
theorem test_wf_gbytes_empty : (Pseudo.gbytes []).wellFormed = false := by decide
theorem test_wf_ckgen_empty : (Pseudo.ckgen []).wellFormed = false := by decide
theorem test_wf_sframe_five_parameters :
    (Pseudo.sframe 0x01#8 0x01#8 (List.replicate 5 0x00#8)).wellFormed = false := by decide
theorem test_wf_gframe_seven_bytes :
    (Pseudo.gframe 0x51#8 (List.replicate 7 0x00#8) 0x00#8).wellFormed = false := by decide
theorem test_wf_frame_bad_id : (ServoFrame.mk 0xFF#8 0x01#8 []).wellFormed = false := by decide
theorem test_wf_frame_five_parameters :
    (ServoFrame.mk 0x01#8 0x01#8 (List.replicate 5 0x00#8)).wellFormed = false := by decide
theorem test_wf_frame_command_zero : (ServoFrame.mk 0x01#8 0x00#8 []).wellFormed = false := by decide
theorem test_wf_frame_command_too_large : (ServoFrame.mk 0x01#8 0x37#8 []).wellFormed = false := by decide

/-! ## The ops, on one step each -/

/-- V-G1: the eleventh byte of an angular-rate frame copies the payload and answers 0252. -/
theorem test_gfeed_completes_arate :
    reply (.gfeed 0x00#8) (gyro (tenBytes 0x52#8)) = some 0x0252#16 ∧
    (after [.gfeed 0x00#8] (gyro (tenBytes 0x52#8))).gfa.arate = payload123 := by decide

/-- V-G7: a byte that is not the sync byte is stored and rejected. -/
theorem test_gfeed_bad_sync :
    reply (.gfeed 0x51#8) State.reset = some 0x0301#16 ∧
    (after [.gfeed 0x51#8] State.reset).gfa.gbuf[0] = 0x51#8 := by decide

/-- V-S7: the bounds of the length range, and V-S6: just outside it. -/
theorem test_sfeed_length_bounds :
    reply (.sfeed 0x07#8) (servo inLength) = some 0x0100#16 ∧
    reply (.sfeed 0x03#8) (servo inLength) = some 0x0100#16 ∧
    reply (.sfeed 0x02#8) (servo inLength) = some 0x0302#16 ∧
    reply (.sfeed 0x08#8) (servo inLength) = some 0x0302#16 := by decide

/-- R98's example: completion of the frame of V-S1. -/
theorem test_sfeed_completes : (after [.sfeed 0xDF#8] (servo inChecksum)).sfp = takenFrame := by decide

/-- V-S19: the latch is one-shot, and SPOLL leaves the rest alone. -/
theorem test_spoll_one_shot : replies [.spoll, .spoll] (servo takenFrame) = some [0x0001#16, 0x0000#16] := by decide

/-- R112's example: a frame whose checksum byte is wrong. -/
theorem test_stake_fail :
    reply .stake (servo { takenFrame with rxCks := 0xDE#8, ckok := false }) = some 0x0300#16 := by decide

/-- V-S21: Success, then Wait. -/
theorem test_stake_success_then_wait :
    replies [.stake, .stake] (servo takenFrame) = some [0x0200#16, 0x0100#16] := by decide

/-- R113's example: SCLR in the middle of the parameters; the fields stay. -/
theorem test_sclr_mid_frame :
    (after [.sclr] (servo (inParams 0x05#8 1))).sfp =
      { Sfp.reset with rxId := 0x01#8, rxLen := 0x05#8, rxCmd := 0x1C#8 } := by decide

/-- R83's example. -/
theorem test_ckclr : (after [.ckclr] (summing 0x1234#16)).cku.ckacc = 0x0000#16 := by decide

/-- V-C5: the carry out of bit 15 is dropped. -/
theorem test_ckacc_wraps : (after [.ckacc 0x01#8] (summing 0xFFFF#16)).cku.ckacc = 0x0000#16 := by decide

/-- V-C6: the carry into the high byte. -/
theorem test_ckacc_carries : (after [.ckacc 0xFF#8] (summing 0x00FF#16)).cku.ckacc = 0x01FE#16 := by decide

/-- V-C1: the checksum byte and another one. -/
theorem test_ckval :
    reply (.ckval 0xDF#8) (summing 0x0020#16) = some 0x0001#16 ∧
    reply (.ckval 0xDE#8) (summing 0x0020#16) = some 0x0000#16 := by decide

/-- V-R1: mapped and unmapped addresses side by side. -/
theorem test_rread_map_edges :
    reply (.rread 0x52#8) State.reset = some 0x00FF#16 ∧ reply (.rread 0x0D#8) State.reset = some 0x0F00#16 ∧
    reply (.rread 0x4A#8) State.reset = some 0x0000#16 ∧ reply (.rread 0x4B#8) State.reset = some 0x0F00#16 ∧
    reply (.rread 0x37#8) State.reset = some 0x0000#16 ∧ reply (.rread 0x38#8) State.reset = some 0x0F00#16 ∧
    reply (.rread 0x53#8) State.reset = some 0x0F00#16 := by decide

/-- V-R3: the view in the middle of the parameters. -/
theorem test_rread_mid_frame :
    reply (.rread 0x00#8) (servo (inParams 0x05#8 1)) = some 0x0050#16 ∧
    reply (.rread 0x02#8) (servo (inParams 0x05#8 1)) = some 0x0006#16 ∧
    reply (.rread 0x03#8) (servo (inParams 0x05#8 1)) = some 0x0001#16 := by decide

/-- V-G4: the components -1, -32768 and 32767, and the reserved field 0xCDAB. -/
theorem test_components :
    let v : Vector Byte 8 := #v[0xFF#8, 0xFF#8, 0x00#8, 0x80#8, 0xFF#8, 0x7F#8, 0xAB#8, 0xCD#8]
    (component v 0).toInt = -1 ∧ (component v 1).toInt = -32768 ∧ (component v 2).toInt = 32767 ∧
      reservedField v = 0xCDAB#16 := by decide

/-- V-C10: the checksum of the move frame's fields. -/
theorem test_cks : cks [0x01#8, 0x07#8, 0x01#8, 0xF4#8, 0x01#8, 0xE8#8, 0x03#8] = 0x16#8 := by decide

/-! ## Steps, the schedule and reset -/

/-- From reset the very next step runs the op that `withFetchWord` places. -/
theorem test_step_runs_placed_op :
    (nextState? (step (State.reset.withFetchWord 16 0x1055))).map (fun t => (t.gfa.gidx, t.response, t.issuer)) =
      some (1#4, some 0x0101#16, some .con) := by decide

/-- An illegal word (V-E2's) answers 0F00 and leaves the parser where it was. -/
theorem test_step_illegal_word :
    (nextState? (step ((servo inId).withFetchWord 16 0x2301))).map (fun t => (t.sfp, t.response)) =
      some (inId, some 0x0F00#16) := by decide

/-- A receive line's bytes are fed in order, and another line's op can fall between them. -/
theorem test_step_interleaves :
    let s := { State.reset with lines := ⟨[], [0x2055#16, 0x2055#16], [], [0x2300#16]⟩,
                                schedule := [.turn .rxs, .turn .grd, .turn .rxs] }
    (nextState? (Host.Core.run core 3 s)).map (fun t => (t.sfp, t.lines)) =
      some (inHeader2, ⟨[], [], [], []⟩) := by decide

/-- Reset between two bytes: the byte in flight is fed after it, or not at all (R139). -/
theorem test_reset_byte_in_flight :
    let s := { servo inId with lines := ⟨[], [0x2055#16], [], []⟩, schedule := [.reset false false, .turn .rxs] }
    let lost := { s with schedule := [.reset false true, .turn .rxs] }
    (nextState? (Host.Core.run core 2 s)).map State.sfp = some inHeader2 ∧
    (nextState? (Host.Core.run core 2 lost)).map State.sfp = some Sfp.reset := by decide

/-! ## Assembler text -/

/-- R67's examples, with a comment, a decimal operand and a lower-case digit. -/
theorem test_asm_ops :
    asmLine "SFEED 0x55".toList = .ops [.sfeed 0x55#8] ∧
    asmLine "RREAD 0x04 ; the ID".toList = .ops [.rread 0x04#8] ∧
    asmLine "STAKE".toList = .ops [.stake] ∧ asmLine "CKACC 244".toList = .ops [.ckacc 0xF4#8] ∧
    asmLine "CKVAL 0xdf".toList = .ops [.ckval 0xDF#8] := by decide

/-- Lines that R67 does not allow. -/
theorem test_asm_bad_operand : asmLine "SFEED 256".toList = .bad .badOperand := by decide
theorem test_asm_missing_operand : asmLine "SFEED".toList = .bad .wrongOperandCount := by decide
theorem test_asm_stray_operand : asmLine "STAKE 0".toList = .bad .wrongOperandCount := by decide
theorem test_asm_lower_case_mnemonic : asmLine "sfeed 1".toList = .bad .unknownMnemonic := by decide
theorem test_asm_empty_pseudo : asmLine "SBYTES".toList = .bad .illFormedPseudo := by decide

/-- V-S1's frame as the pseudo-op SFRAME. -/
theorem test_asm_sframe :
    asmLine "SFRAME 0x01, 0x1C".toList =
      .ops ([0x55#8, 0x55#8, 0x01#8, 0x03#8, 0x1C#8, 0xDF#8].map .sfeed) := by decide

/-- P3's first line. -/
theorem test_asm_ckgen :
    asmLine "CKGEN 0x01, 7".toList = .ops [.ckclr, .ckacc 0x01#8, .ckacc 0x07#8, .rread 0x52#8] := by decide

/-! ## Witnesses for the statements' hypotheses -/

/-- Each row of the opcode map at its smallest and largest operand, and words of no row. -/
theorem test_witness_OpcodeMapByMatchAndMask :
    0x1000#16 &&& 0xFF00#16 = 0x1000#16 ∧ 0x20FF#16 &&& 0xFF00#16 = 0x2000#16 ∧
    0x31FF#16 &&& 0xFF00#16 = 0x3100#16 ∧ 0x3200#16 &&& 0xFF00#16 = 0x3200#16 ∧
    0x40FF#16 &&& 0xFF00#16 = 0x4000#16 ∧
    ∀ w ∈ [0x2101#16, 0x0FFF#16, 0x1100#16, 0x4100#16],
      w ∉ [0x2100#16, 0x2200#16, 0x2300#16, 0x3000#16] ∧
        w &&& 0xFF00#16 ∉ [0x1000#16, 0x2000#16, 0x3100#16, 0x3200#16, 0x4000#16] := by simp

/-- Where legal and reserved opcodes meet. -/
theorem test_witness_IllegalWordOnlyAnswers :
    (∀ c ∈ [0x10#8, 0x20#8, 0x21#8, 0x23#8, 0x30#8, 0x32#8, 0x40#8], legalOpWord c 0x00#8 = true) ∧
    (∀ c ∈ [0x00#8, 0x0F#8, 0x11#8, 0x1F#8, 0x24#8, 0x2F#8, 0x33#8, 0x3F#8, 0x41#8, 0xFF#8],
      legalOpWord c 0x00#8 = false) ∧ legalOpWord 0x30#8 0xFF#8 = false := by decide

theorem test_witness_DecodeEncodeAgree : decode 0x40FF#16 = .op (.rread 0xFF#8) := by decide

theorem test_witness_PseudoOpExpansions :
    [0x00#8, 0x01#8, 0x02#8, 0x03#8].length ≤ 4 ∧ ([] : List Byte).length ≤ 4 ∧
    (List.replicate 8 0x00#8).length = 8 := by decide

theorem test_witness_StepRunsDecodedOp :
    let s := { State.reset with lines := ⟨[0x1055#16, 0x1051#16], [], [], []⟩, schedule := [.turn .rxg] }
    s.schedule = .turn .rxg :: [] ∧ lineOf s.lines .rxg = 0x1055#16 :: [0x1051#16] ∧
    decode 0x1055#16 = .op (.gfeed 0x55#8) := by decide

/-- One step of a state in which two agents have issued ops: the agent served has its line shortened. -/
theorem test_witness_EveryInterleavingInLineOrder :
    let s := { State.reset with lines := ⟨[0x1055#16], [0x2055#16], [], []⟩, schedule := [.turn .rxs] }
    let t := (nextState? (step s)).getD s
    lineOf s.lines .rxs = 0x2055#16 :: [] ∧ (nextState? (step s)).isSome = true ∧
    (∀ g r, s.schedule.head? ≠ some (.reset g r)) ∧ lineOf t.lines .rxs ≠ lineOf s.lines .rxs ∧
    lineOf t.lines .rxg = lineOf s.lines .rxg := by decide

theorem test_witness_IdleStepChangesNoRegister :
    State.reset.schedule = [] ∧
    ({ State.reset with schedule := [.turn .grd] } : State).schedule = .turn .grd :: [] ∧
    lineOf State.reset.lines .grd = [] := by decide

theorem test_witness_ResetSetsEveryRegister :
    ({ servo takenFrame with schedule := [.reset true false] } : State).schedule = .reset true false :: [] := by
  decide

theorem test_witness_ResetKeepsUndeliveredOps :
    ({ State.reset with lines := ⟨[], [0x2055#16], [], []⟩, schedule := [.reset false true] } : State).schedule =
      .reset false true :: [] := by decide

/-- Two states with the same registers and different lines, in which an op runs, and two in which it faults. -/
theorem test_witness_OpsReadRegistersOnly :
    let s := servo takenFrame
    let s' := { s with schedule := [.turn .con], response := some 0x0F00#16 }
    let f := servo { takenFrame with sstate := .done }
    s.sfp = s'.sfp ∧ s.gfa = s'.gfa ∧ s.cku = s'.cku ∧ (nextState? (exec .stake s)).isSome = true ∧
    faultOf? (exec (.sfeed 0x00#8) f) = some .sstateDone := by decide

theorem test_witness_ResponseWordShape :
    (nextState? (perform 0x4052#16 State.reset)).isSome = true ∧
    (nextState? (perform 0xFFFF#16 State.reset)).isSome = true := by decide

theorem test_witness_CkclrClearsAccumulator : 0x01#8 ≠ 0x00#8 := by decide

theorem test_witness_ChecksumBlindSpots :
    [0x01#8, 0x02#8].Perm [0x02#8, 0x01#8] ∧ ([0xFF#8, 0x01#8].map BitVec.toNat).sum % 256 = 0 := by decide

/-- At GIDX = 0 a byte that is no sync byte; in mid-frame (GIDX = 1 and 10) any byte. -/
theorem test_witness_GfeedRejectsBadSync :
    State.reset.gfa.gidx = 0#4 ∧ 0x54#8 ≠ 0x55#8 ∧ (gyro (tenBytes 0x51#8)).gfa.Inv ∧
    (gyro (tenBytes 0x51#8)).gfa.gidx ≠ 0#4 ∧ (after [.gfeed 0x55#8] State.reset).gfa.Inv ∧
    (after [.gfeed 0x55#8] State.reset).gfa.gidx ≠ 0#4 := by decide

/-- The first byte of a frame, and the tenth. -/
theorem test_witness_GfeedAccumulates :
    let first := State.reset
    let tenth := gyro { tenBytes 0x51#8 with gidx := 9#4 }
    first.gfa.Inv ∧ first.gfa.gidx.toNat < 10 ∧ (first.gfa.gidx = 0#4 → 0x55#8 = 0x55#8) ∧
    tenth.gfa.Inv ∧ tenth.gfa.gidx.toNat < 10 ∧ (tenth.gfa.gidx = 0#4 → 0x00#8 = 0x55#8) := by decide

theorem test_witness_GfeedDispatchesKnownSubtype :
    ∀ st ∈ [0x51#8, 0x52#8, 0x53#8],
      (gyro (tenBytes st)).gfa.Inv ∧ (gyro (tenBytes st)).gfa.gidx = 10#4 ∧
        (gyro (tenBytes st)).gfa.gbuf[1] = st := by decide

theorem test_witness_GfeedDropsUnknownSubtype :
    ∀ st ∈ [0x50#8, 0x54#8],
      (gyro (tenBytes st)).gfa.Inv ∧ (gyro (tenBytes st)).gfa.gidx = 10#4 ∧
        (gyro (tenBytes st)).gfa.gbuf[1] ∉ [0x51#8, 0x52#8, 0x53#8] := by decide

theorem test_witness_GyroFrameIsDecoded : (gyro { tenBytes 0x53#8 with gidx := 0#4 }).gfa.gidx = 0#4 := by decide

/-- A completing GFEED, another op, a reset, and two states with the same gyro registers. -/
theorem test_witness_GyroUnitIndependent :
    let s := gyro (tenBytes 0x53#8)
    let s' := { s with sfp := takenFrame }
    let t := after [.gfeed 0x00#8] s
    let r := { s with schedule := [.reset false false] }
    (nextState? (exec (.gfeed 0x00#8) s)).isSome = true ∧ s.gfa = s'.gfa ∧
    (∀ b, Instr.sclr ≠ .gfeed b) ∧ (nextState? (exec .sclr s)).isSome = true ∧
    r.schedule = .reset false false :: [] ∧ (nextState? (step r)).isSome = true ∧
    s.gfa.Inv ∧ s.gfa.gidx ≠ 0#4 ∧ t.gfa.gidx = 0#4 := by
  simp only [ne_eq, reduceCtorEq, not_false_eq_true, implies_true, true_and]
  decide

/-- Each decoded structure does change at a completing GFEED of its sub-type. -/
theorem test_witness_DecodedStructureWriters :
    (gyro (tenBytes 0x51#8)).gfa.Inv ∧ (gyro (tenBytes 0x52#8)).gfa.Inv ∧ (gyro (tenBytes 0x53#8)).gfa.Inv ∧
    (after [.gfeed 0x00#8] (gyro (tenBytes 0x51#8))).gfa.acc ≠ (gyro (tenBytes 0x51#8)).gfa.acc ∧
    (after [.gfeed 0x00#8] (gyro (tenBytes 0x52#8))).gfa.arate ≠ (gyro (tenBytes 0x52#8)).gfa.arate ∧
    (after [.gfeed 0x00#8] (gyro (tenBytes 0x53#8))).gfa.angle ≠ (gyro (tenBytes 0x53#8)).gfa.angle := by decide

theorem test_witness_SfeedAwaitHeader1 :
    (servo takenFrame).sfp.Inv ∧ (servo takenFrame).sfp.sstate = .awaitHeader1 := by decide

theorem test_witness_SfeedAwaitHeader2 :
    (servo inHeader2).sfp.Inv ∧ (servo inHeader2).sfp.sstate = .awaitHeader2 := by decide

theorem test_witness_SfeedReadId : (servo inId).sfp.Inv ∧ (servo inId).sfp.sstate = .readId := by decide

theorem test_witness_SfeedReadLength :
    (servo inLength).sfp.Inv ∧ (servo inLength).sfp.sstate = .readLength := by decide

/-- The shortest and the longest frame. -/
theorem test_witness_SfeedReadCommand :
    ∀ len ∈ [3#8, 7#8], (servo (inCommand len)).sfp.Inv ∧ (servo (inCommand len)).sfp.sstate = .readCommand := by
  decide

/-- The first and the last parameter, in the shortest and the longest frame that has any. -/
theorem test_witness_SfeedReadParams :
    ∀ p ∈ [inParams 4#8 0, inParams 7#8 0, inParams 7#8 3],
      (servo p).sfp.Inv ∧ (servo p).sfp.sstate = .readParams := by decide

theorem test_witness_SfeedReadChecksumCompletes :
    ∀ p ∈ [inChecksum, inChecksum7], (servo p).sfp.Inv ∧ (servo p).sfp.sstate = .readChecksum := by decide

/-- Each abort, at the bytes next to the accepted ranges: a sync byte as a length too. -/
theorem test_witness_AbortChangesTransientStateOnly :
    (servo inId).sfp.Inv ∧ reply (.sfeed 0xFF#8) (servo inId) = some (0x03#8 ++ 0x01#8) ∧
    (servo inLength).sfp.Inv ∧ reply (.sfeed 0x02#8) (servo inLength) = some (0x03#8 ++ 0x02#8) ∧
    reply (.sfeed 0x55#8) (servo inLength) = some (0x03#8 ++ 0x02#8) ∧
    (servo (inCommand 3#8)).sfp.Inv ∧ reply (.sfeed 0x37#8) (servo (inCommand 3#8)) = some (0x03#8 ++ 0x03#8) ∧
    (servo inHeader2).sfp.Inv ∧ reply (.sfeed 0x54#8) (servo inHeader2) = some (0x03#8 ++ 0x04#8) := by decide

/-- Each stop: DONE; a length just outside [3, 7]; counters that disagree; GIDX = 11; a taken frame without a
length. -/
theorem test_witness_StopsOutsideTheInvariants :
    (servo { Sfp.reset with sstate := .done }).sfp.sstate = .done ∧
    (servo (inCommand 2#8)).sfp.sstate ∈ [.readCommand, .readParams, .readChecksum] ∧
    (servo (inCommand 2#8)).sfp.rxLen.toNat < 3 ∧
    (servo (inCommand 8#8)).sfp.sstate ∈ [.readCommand, .readParams, .readChecksum] ∧
    7 < (servo (inCommand 8#8)).sfp.rxLen.toNat ∧
    (servo { inCommand 3#8 with shcnt := 3#2 }).sfp.sstate ≠ .done ∧
    3 ≤ (servo { inCommand 3#8 with shcnt := 3#2 }).sfp.rxLen.toNat ∧
    (servo { inCommand 3#8 with shcnt := 3#2 }).sfp.rxLen.toNat ≤ 7 ∧
    (servo { inCommand 3#8 with shcnt := 3#2 }).sfp.countersAgree = false ∧
    10 < (gyro { Gfa.reset with gidx := 11#4 }).gfa.gidx.toNat ∧
    (servo { Sfp.reset with ready := true }).sfp.ready = true ∧
    (servo { Sfp.reset with ready := true }).sfp.rxLen.toNat < 3 := by decide

/-- The shortest and the longest frame, from a state that an earlier frame left. -/
theorem test_witness_WellFormedFrameIsParsed :
    (servo takenFrame).sfp.Inv ∧ (servo takenFrame).sfp.sstate = .awaitHeader1 ∧
    readPosition.wellFormed = true ∧ move.wellFormed = true ∧
    (ServoFrame.mk 0xFE#8 0x36#8 []).wellFormed = true := by decide

theorem test_witness_FrameAfterNoiseIsParsed :
    (servo takenFrame).sfp.Inv ∧ (servo takenFrame).sfp.sstate = .awaitHeader1 ∧
    0x55#8 ∉ [0x00#8, 0xAA#8, 0xFF#8] ∧ move.wellFormed = true := by decide

/-- The wedged parser of P5. -/
theorem test_witness_SclrFreesWedgedParser :
    (servo (inParams 7#8 1)).sfp.Inv ∧ readPosition.wellFormed = true := by decide

/-- V-S25, and the largest ID. -/
theorem test_witness_StakeValidatesTheMix :
    (servo takenFrame).sfp.Inv ∧ (servo takenFrame).sfp.sstate = .awaitHeader1 ∧
    (servo takenFrame).sfp.ready = true ∧ (0x02#8).toNat ≤ 254 ∧ (0xFE#8).toNat ≤ 254 := by decide

theorem test_witness_SpollReadsAndClearsReady : 0x01#8 ≠ 0x00#8 ∧ 0xFF#8 ≠ 0x00#8 := by decide

theorem test_witness_StakeClaimsAndValidates :
    0x01#8 ≠ 0x00#8 ∧ State.reset.sfp.ready = false ∧ (servo takenFrame).sfp.ready = true ∧
    3 ≤ (servo takenFrame).sfp.rxLen.toNat ∧ (servo takenFrame).sfp.rxLen.toNat ≤ 7 ∧
    (servo { takenFrame with rxLen := 7#8 }).sfp.rxLen.toNat ≤ 7 := by decide

theorem test_witness_SclrResetsTransientState : 0x80#8 ≠ 0x00#8 := by decide

/-- Each way READY changes: a completion, SPOLL, STAKE and reset. -/
theorem test_witness_ReadyWriters :
    let r := { servo takenFrame with schedule := [.reset false false] }
    (servo inChecksum).sfp.ready = false ∧ (servo inChecksum).sfp.sstate = .readChecksum ∧
    (after [.sfeed 0xDE#8] (servo inChecksum)).sfp.ready = true ∧
    (servo takenFrame).sfp.ready = true ∧ (after [.spoll] (servo takenFrame)).sfp.ready = false ∧
    (after [.stake] (servo takenFrame)).sfp.ready = false ∧
    r.schedule = .reset false false :: [] ∧ (nextState? (step r)).isSome = true := by decide

/-- A completion with a wrong and with a right checksum byte, and a STAKE and a reset that run. -/
theorem test_witness_CkokWriters :
    let r := { servo takenFrame with schedule := [.reset false false] }
    (servo inChecksum).sfp.sstate = .readChecksum ∧
    (after [.sfeed 0xDE#8] (servo inChecksum)).sfp.ckok = false ∧
    (after [.sfeed 0xDF#8] (servo inChecksum)).sfp.ckok = true ∧
    (nextState? (exec .stake (servo takenFrame))).isSome = true ∧
    r.schedule = .reset false false :: [] ∧ (nextState? (step r)).isSome = true := by decide

theorem test_witness_StakeAgreesWithCkok :
    let between := [Instr.sclr, .rread 0x00#8, .ckacc 0x01#8, .gfeed 0x55#8]
    (servo inChecksum).sfp.Inv ∧ (servo inChecksum).sfp.sstate = .readChecksum ∧
    (∀ i ∈ between, (∀ c, i ≠ .sfeed c) ∧ i ≠ .spoll ∧ i ≠ .stake) ∧
    (nextState? (execAll (.sfeed 0xDF#8 :: between) (servo inChecksum))).isSome = true := by
  simp only [List.mem_cons, List.not_mem_nil, or_false, forall_eq_or_imp, forall_eq, ne_eq, reduceCtorEq,
    not_false_eq_true, implies_true, and_self, true_and]
  decide

theorem test_witness_OneClaimPerCompletion :
    let between := [Instr.rread 0x04#8, .sclr, .gfeed 0x55#8]
    (∀ i ∈ between, ∀ c, i ≠ .sfeed c) ∧
    (nextState? (execAll (.spoll :: between) (servo takenFrame))).isSome = true ∧
    (nextState? (execAll (.stake :: between) (servo takenFrame))).isSome = true := by
  simp only [List.mem_cons, List.not_mem_nil, or_false, forall_eq_or_imp, forall_eq, ne_eq, reduceCtorEq,
    not_false_eq_true, implies_true, and_self, true_and]
  decide

theorem test_witness_StakeWaitsWithoutFrame : State.reset.sfp.ready = false := by decide

/-- An SFEED that does change each frame register, and an SCLR that changes the transient state. -/
theorem test_witness_ServoRegisterWriters :
    (∀ b, Instr.spoll ≠ .sfeed b) ∧ Instr.spoll ≠ .sclr ∧ (nextState? (exec .spoll (servo inId))).isSome = true ∧
    (after [.sfeed 0x07#8] (servo inId)).sfp.rxId ≠ (servo inId).sfp.rxId ∧
    (after [.sfeed 0x07#8] (servo inLength)).sfp.rxLen ≠ (servo inLength).sfp.rxLen ∧
    (after [.sfeed 0x36#8] (servo (inCommand 7#8))).sfp.rxCmd ≠ (servo (inCommand 7#8)).sfp.rxCmd ∧
    (after [.sfeed 0x01#8] (servo (inParams 7#8 3))).sfp.rxP[3] ≠ (servo (inParams 7#8 3)).sfp.rxP[3] ∧
    (after [.sfeed 0xDF#8] (servo inChecksum)).sfp.rxCks ≠ (servo inChecksum).sfp.rxCks ∧
    (after [.sfeed 0xDF#8] (servo inChecksum)).sfp.rxCkcalc ≠ (servo inChecksum).sfp.rxCkcalc := by
  simp only [ne_eq, reduceCtorEq, not_false_eq_true, implies_true, true_and]
  decide

theorem test_witness_UnitsShareNoRegister :
    (nextState? (exec (.sfeed 0x55#8) State.reset)).isSome = true ∧
    (nextState? (exec .spoll State.reset)).isSome = true ∧
    (nextState? (exec .stake (servo takenFrame))).isSome = true ∧
    (nextState? (exec .sclr State.reset)).isSome = true ∧
    (nextState? (exec .ckclr State.reset)).isSome = true ∧
    (nextState? (exec (.ckacc 0x01#8) State.reset)).isSome = true ∧
    (nextState? (exec (.ckval 0xFF#8) State.reset)).isSome = true ∧
    (nextState? (exec (.rread 0x52#8) State.reset)).isSome = true := by decide

/-- The ends of the unmapped ranges. -/
theorem test_witness_RreadReadsTheRegisterMap :
    ∀ a ∈ [0x0D#8, 0x0F#8, 0x11#8, 0x1F#8, 0x38#8, 0x3F#8, 0x4B#8, 0x4F#8, 0x53#8, 0xFF#8],
      (0x0D ≤ a.toNat ∧ a.toNat ≤ 0x0F) ∨ (0x11 ≤ a.toNat ∧ a.toNat ≤ 0x1F) ∨
        (0x38 ≤ a.toNat ∧ a.toNat ≤ 0x3F) ∨ (0x4B ≤ a.toNat ∧ a.toNat ≤ 0x4F) ∨ 0x53 ≤ a.toNat := by decide

/-- A state in mid-frame on both lines, and its step. -/
theorem test_witness_EveryStepKeepsInvariants :
    let s := { servo (inParams 7#8 3) with gfa := tenBytes 0x51#8, lines := ⟨[], [0x2055#16], [], []⟩,
                                           schedule := [.turn .rxs] }
    s.Inv ∧ (nextState? (step s)).isSome = true := by decide

theorem test_witness_EveryOpHasAResponse :
    ({ servo inChecksum7 with gfa := tenBytes 0x54#8 } : State).Inv := by decide

theorem test_witness_NoRunStops :
    ({ servo inChecksum7 with gfa := tenBytes 0x54#8, schedule := [.turn .rxg, .reset true true] } : State).Inv := by
  decide

end Sys2Proof.Tests
end

/-!
SUPPORT. What an op and a reset do to the servo parser's registers and to the flags READY and CKOK, said once; the
flags' bits in SSTAT; and a decoded structure's fields as numbers.
-/

namespace Sys2Proof.Machine

/-! ## Reset -/

/-- The step of a reset event (R138, R139). -/
theorem step_reset {s : State} {g r : Bool} {rest : List Event} (h : s.schedule = .reset g r :: rest) :
    step s = .next (serveReset g r { s with schedule := rest }) := by
  simp [step, cycle, h]

/-- After the step of a reset event the servo parser is at its reset value (R40). -/
theorem sfp_of_step_reset {s t : State} {g r : Bool} {rest : List Event} (h : s.schedule = .reset g r :: rest)
    (ht : step s = .next t) : t.sfp = Sfp.reset := by
  rw [step_reset h, Host.Outcome.next.injEq] at ht
  rw [← ht, serveReset_sfp]

/-! ## SFEED and the flags -/

theorem Sfp.feed_of_readChecksum {p : Sfp} (h : p.sstate = .readChecksum) (b : Byte) :
    p.feed b = p.feedChecksum b := by
  simp [Sfp.feed, h]

@[simp] theorem Sfp.feedChecksum_ready (p : Sfp) (b : Byte) : (p.feedChecksum b).1.ready = true := rfl

/-- Completion sets CKOK to whether the received checksum byte is the computed one (R27, R105). -/
@[simp] theorem Sfp.feedChecksum_ckok (p : Sfp) (b : Byte) :
    (p.feedChecksum b).1.ckok = ((p.feedChecksum b).1.rxCks == (p.feedChecksum b).1.rxCkcalc) := rfl

/-- A byte that completes no frame leaves READY and CKOK alone. -/
theorem Sfp.feed_keeps_flags {p : Sfp} (h : p.sstate ≠ .readChecksum) (b : Byte) :
    (p.feed b).1.ready = p.ready ∧ (p.feed b).1.ckok = p.ckok := by
  cases hs : p.sstate with
  | awaitHeader1 => simp only [Sfp.feed, hs, Sfp.feedHeader1]; split <;> simp
  | awaitHeader2 => simp only [Sfp.feed, hs, Sfp.feedHeader2]; split <;> simp [Sfp.abort]
  | readId => simp only [Sfp.feed, hs, Sfp.feedId]; split <;> simp [Sfp.abort]
  | readLength => simp only [Sfp.feed, hs, Sfp.feedLength]; split <;> simp [Sfp.abort]
  | readCommand => simp only [Sfp.feed, hs, Sfp.feedCommand]; split <;> simp [Sfp.abort]
  | readParams => simp [Sfp.feed, hs, Sfp.feedParam]
  | readChecksum => exact absurd hs h
  | done => simp [Sfp.feed, hs]

/-! ## What an op does to the servo parser -/

theorem Sfp.clearReady_of_not_ready {p : Sfp} (h : p.ready = false) : p.clearReady = p := by
  simp [Sfp.clearReady, ← h]

/-- The servo parser's registers after an op that runs, tied to the model by `exec_sfp`: SFEED feeds its byte, SPOLL
and STAKE clear READY, SCLR clears the transient state, and no other op touches them. -/
def Sfp.afterOp (p : Sfp) : Instr → Sfp
  | .sfeed b => (p.feed b).1
  | .spoll | .stake => p.clearReady
  | .sclr => p.clearTransient
  | .gfeed _ | .ckclr | .ckacc _ | .ckval _ | .rread _ => p

/-- An op that runs leaves the servo parser as `Sfp.afterOp` says. STAKE's Wait fits it because READY is 0 there. -/
theorem exec_sfp {i : Instr} {s t : State} (h : exec i s = .next t) : t.sfp = s.sfp.afterOp i := by
  cases i with
  | gfeed b => obtain ⟨-, rfl⟩ := exec_gfeed_next.mp h; rfl
  | sfeed b => obtain ⟨-, rfl⟩ := exec_sfeed_next.mp h; rfl
  | spoll => rw [← exec_spoll_next.mp h]; rfl
  | stake =>
    obtain ⟨hr, rfl⟩ | ⟨-, -, rfl⟩ := exec_stake_next.mp h
    · exact (Sfp.clearReady_of_not_ready hr).symm
    · rfl
  | sclr => rw [← exec_sclr_next.mp h]; rfl
  | ckclr => rw [← exec_ckclr_next.mp h]; rfl
  | ckacc b => rw [← exec_ckacc_next.mp h]; rfl
  | ckval b => rw [← exec_ckval_next.mp h]; rfl
  | rread a => rw [← exec_rread_next.mp h]; rfl

/-- SFEED in READ_CHECKSUM sets READY and writes the verdict to CKOK. -/
theorem exec_sfeed_readChecksum_flags {b : Byte} {s t : State} (hs : s.sfp.sstate = .readChecksum)
    (h : exec (.sfeed b) s = .next t) :
    t.sfp.ready = true ∧ (t.sfp.ckok = true ↔ t.sfp.rxCks = t.sfp.rxCkcalc) := by
  have ht : t.sfp = (s.sfp.feedChecksum b).1 := by
    rw [exec_sfp h, Sfp.afterOp, Sfp.feed_of_readChecksum hs]
  simp [ht]

/-- SPOLL and STAKE, where they run, leave READY 0 and keep CKOK. -/
theorem exec_claim_flags {i : Instr} {s t : State} (hi : i = .spoll ∨ i = .stake) (h : exec i s = .next t) :
    t.sfp.ready = false ∧ t.sfp.ckok = s.sfp.ckok := by
  have ht : t.sfp = s.sfp.clearReady := by
    rw [exec_sfp h]
    obtain rfl | rfl := hi <;> rfl
  simp [ht]

/-- What an op can do to READY and CKOK: it completes a frame, it claims one, or it keeps both. -/
theorem exec_flags_cases {i : Instr} {s t : State} (h : exec i s = .next t) :
    ((∃ b, i = .sfeed b) ∧ s.sfp.sstate = .readChecksum ∧
      t.sfp.ready = true ∧ (t.sfp.ckok = true ↔ t.sfp.rxCks = t.sfp.rxCkcalc)) ∨
    ((i = .spoll ∨ i = .stake) ∧ t.sfp.ready = false ∧ t.sfp.ckok = s.sfp.ckok) ∨
    (t.sfp.ready = s.sfp.ready ∧ t.sfp.ckok = s.sfp.ckok) := by
  have ht := exec_sfp h
  cases i with
  | sfeed b =>
    by_cases hs : s.sfp.sstate = .readChecksum
    · exact .inl ⟨⟨b, rfl⟩, hs, exec_sfeed_readChecksum_flags hs h⟩
    · exact .inr (.inr (ht ▸ Sfp.feed_keeps_flags hs b))
  | spoll => exact .inr (.inl ⟨.inl rfl, exec_claim_flags (.inl rfl) h⟩)
  | stake => exact .inr (.inl ⟨.inr rfl, exec_claim_flags (.inr rfl) h⟩)
  | sclr | gfeed | ckclr | ckacc | ckval | rread => simp [ht, Sfp.afterOp]

/-- STAKE does not read CKOK: another value of it is carried through (R27). -/
theorem exec_stake_of_ckok_changed {s t : State} (c : Bool) (h : exec .stake s = .next t) :
    exec .stake { s with sfp := { s.sfp with ckok := c } } = .next { t with sfp := { t.sfp with ckok := c } } := by
  obtain ⟨hr, rfl⟩ | ⟨hr, hl, rfl⟩ := exec_stake_next.mp h
  · exact exec_stake_next.mpr (.inl ⟨hr, rfl⟩)
  · exact exec_stake_next.mpr (.inr ⟨hr, hl, rfl⟩)

/-! ## SSTAT -/

/-- RREAD of address 0x00 answers OK with SSTAT (R42). -/
theorem exec_rread_sstat (s : State) :
    exec (.rread 0x00#8) s = .next { s with response := some (0x00#8 ++ s.sfp.sstat) } := by
  have hmap : regMap s 0x00#8 = some s.sfp.sstat := rfl
  rw [exec_rread_next, hmap]
  simp only [State.answer, respond_ok]

theorem getLsbD_zero_append_flagBit {n : Nat} (x : BitVec n) (b : Bool) : (x ++ flagBit b).getLsbD 0 = b := by
  rw [BitVec.getLsbD_append]
  simp [flagBit]

theorem getLsbD_succ_append_flagBit {n : Nat} (x : BitVec n) (b : Bool) (k : Nat) :
    (x ++ flagBit b).getLsbD (k + 1) = x.getLsbD k := by
  rw [BitVec.getLsbD_append]
  simp

/-- Bit 0 of SSTAT is READY (R38). -/
theorem Sfp.sstat_getLsbD_zero (p : Sfp) : p.sstat.getLsbD 0 = p.ready :=
  getLsbD_zero_append_flagBit _ _

/-- Bit 1 of SSTAT is CKOK (R38). -/
theorem Sfp.sstat_getLsbD_one (p : Sfp) : p.sstat.getLsbD 1 = p.ckok :=
  (getLsbD_succ_append_flagBit _ p.ready 0).trans (getLsbD_zero_append_flagBit _ _)

/-! ## Decoded structures -/

/-- Component `c` as an unsigned number: byte 2c + 1 high, byte 2c low (R32). -/
theorem toNat_component (v : Vector Byte 8) (c : Fin 3) :
    (component v c).toNat = v[2 * c.val + 1].toNat * 256 + v[2 * c.val].toNat := by
  rw [component, toNat_byte_append, byteAt_eq v _ (by omega), byteAt_eq v _ (by omega)]

theorem toNat_reservedField (v : Vector Byte 8) : (reservedField v).toNat = v[7].toNat * 256 + v[6].toNat := by
  rw [reservedField, toNat_byte_append, byteAt_eq v 7 (by omega), byteAt_eq v 6 (by omega)]

end Sys2Proof.Machine

/-! ## The obligations of 10_state.md -/

namespace Sys2Proof.Proofs

open Sys2Proof.Machine

/-- Settles O10: the step of a reset event is `serveReset`, whose registers are R40's table. -/
theorem resetSetsEveryRegister : Obligations.ResetSetsEveryRegister := by
  intro s loseRxg loseRxs rest h
  exact ⟨_, step_reset h, rfl, rfl, rfl⟩

/-- Settles O27: the high byte of a component is below 128 exactly when its word is below 2^15, where `toInt` is
`toNat`. -/
theorem componentsAreLittleEndian : Obligations.ComponentsAreLittleEndian := by
  refine ⟨fun v c => ?_, fun v => ?_⟩
  · have hlow := v[2 * c.val].isLt
    rw [BitVec.toInt_eq_toNat_cond, toNat_component]
    split <;> split <;> omega
  · rw [toNat_reservedField, Nat.mul_comm]

/-- Settles O45, from the three things an op can do to the flags. -/
theorem readyWriters : Obligations.ReadyWriters := by
  refine ⟨?set, ?cleared, ?completion, ?claim, ?reset, ?sstat⟩
  case set =>
    intro i s t h hs ht
    obtain ⟨hi, hstate, -, -⟩ | ⟨-, hr, -⟩ | ⟨hr, -⟩ := exec_flags_cases h
    · exact ⟨hi, hstate⟩
    · simp [hr] at ht
    · simp [hr, hs] at ht
  case cleared =>
    intro i s t h hs ht
    obtain ⟨-, -, hr, -⟩ | ⟨hi, -, -⟩ | ⟨hr, -⟩ := exec_flags_cases h
    · simp [hr] at ht
    · exact hi
    · simp [hr, hs] at ht
  case completion => exact fun b s t h hs => (exec_sfeed_readChecksum_flags hs h).1
  case claim => exact fun i s t hi h => (exec_claim_flags hi h).1
  case reset =>
    intro s t g r rest hs h
    rw [sfp_of_step_reset hs h]
    rfl
  case sstat => exact fun s => ⟨s.sfp.sstat, exec_rread_sstat s, s.sfp.sstat_getLsbD_zero⟩

/-- Settles O46, from the three things an op can do to the flags. -/
theorem ckokWriters : Obligations.CkokWriters := by
  refine ⟨?written, ?completion, ?stake, ?reset, ?sstat⟩
  case written =>
    intro i s t h
    obtain ⟨hi, hstate, -, hck⟩ | ⟨-, -, hck⟩ | ⟨-, hck⟩ := exec_flags_cases h
    · exact .inl ⟨hi, hstate, hck⟩
    · exact .inr hck
    · exact .inr hck
  case completion => exact fun s t b hs h => (exec_sfeed_readChecksum_flags hs h).2
  case stake => exact fun s t c h => exec_stake_of_ckok_changed c h
  case reset =>
    intro s t g r rest hs h
    rw [sfp_of_step_reset hs h]
    rfl
  case sstat => exact fun s => ⟨s.sfp.sstat, exec_rread_sstat s, s.sfp.sstat_getLsbD_one⟩

end Sys2Proof.Proofs

/-!
SUPPORT. RREAD's two outcomes (R118), and the register map (R42, R44) by the kind of row: a byte, a register narrower
than a byte, a register file, an unmapped address.
-/

namespace Sys2Proof.Machine

/-! ## RREAD's two outcomes -/

theorem exec_rread_mapped {a d : Byte} {s : State} (h : regMap s a = some d) :
    exec (.rread a) s = .next { s with response := some (0x00#8 ++ d) } := by
  rw [exec_rread_next, h]
  simp only [State.answer, respond_ok]

theorem exec_rread_unmapped {a : Byte} {s : State} (h : regMap s a = none) :
    exec (.rread a) s = .next { s with response := some 0x0F00#16 } := by
  rw [exec_rread_next, h]
  simp only [State.answer, respond_illegal_00]

/-! ## Narrow registers -/

/-- A register of at most 8 bits, zero-extended to a byte under a zero status (R42), is its number as a word. -/
theorem zero_append_setWidth {n : Nat} (hn : n ≤ 8) (x : BitVec n) :
    (0x00#8 ++ x.setWidth 8 : Word) = BitVec.ofNat 16 x.toNat := by
  have hx : x.toNat < 2 ^ 8 := x.isLt.trans_le (Nat.pow_le_pow_right (by decide) hn)
  apply BitVec.eq_of_toNat_eq
  rw [toNat_byte_append, BitVec.toNat_setWidth, BitVec.toNat_ofNat, BitVec.toNat_ofNat]
  omega

theorem exec_rread_narrow {n : Nat} (hn : n ≤ 8) {a : Byte} {s : State} {x : BitVec n}
    (h : regMap s a = some (x.setWidth 8)) :
    exec (.rread a) s = .next { s with response := some (BitVec.ofNat 16 x.toNat) } := by
  rw [exec_rread_mapped h, zero_append_setWidth hn]

/-! ## Register files -/

/-- A register file that the map shows from `base` on answers byte `k` at address `base + k`. -/
theorem exec_rread_file {base n : Nat} {v : Vector Byte n} {s : State} (hn : base + n ≤ 256)
    (hmap : ∀ a : Byte, base ≤ a.toNat → a.toNat < base + n → regMap s a = some (byteAt v (a.toNat - base)))
    (k : Fin n) :
    exec (.rread (BitVec.ofNat 8 (base + k.val))) s = .next { s with response := some (0x00#8 ++ v[k]) } := by
  have hk := k.isLt
  have ha : (BitVec.ofNat 8 (base + k.val)).toNat = base + k.val := by
    rw [BitVec.toNat_ofNat, Nat.mod_eq_of_lt (by omega)]
  apply exec_rread_mapped
  rw [hmap _ (by omega) (by omega), ha, Nat.add_sub_cancel_left, byteAt_eq v k hk]
  rfl

/-! ## Unmapped addresses -/

theorem regMap_unmapped (s : State) {a : Byte}
    (h : (0x0D ≤ a.toNat ∧ a.toNat ≤ 0x0F) ∨ (0x11 ≤ a.toNat ∧ a.toNat ≤ 0x1F) ∨
      (0x38 ≤ a.toNat ∧ a.toNat ≤ 0x3F) ∨ (0x4B ≤ a.toNat ∧ a.toNat ≤ 0x4F) ∨ 0x53 ≤ a.toNat) :
    regMap s a = none := by
  simp (disch := omega) only [regMap, if_neg]

/-! ## The op word and CKRES -/

theorem decode_rread (a : Byte) : decode (0x40#8 ++ a) = .op (.rread a) := by
  simp [decode]

/-- The low byte of the inverted accumulator is the inverted low byte (R34). -/
theorem ckres_eq_not_low (acc : Word) : ckres acc = ~~~(acc.extractLsb' 0 8) := by
  rw [ckres, BitVec.extractLsb'_not_of_lt (by decide)]

/-! ## SSTAT -/

theorem flagBit_eq_ite (b : Bool) : flagBit b = if b then 1#1 else 0#1 := by
  cases b <;> rfl

/-- SSTAT's bits, with each flag's bit written out (R38). -/
theorem Sfp.sstat_eq (p : Sfp) :
    p.sstat = 0#1 ++ sstateCode p.sstate ++ 0#2 ++ (if p.ckok then 1#1 else 0#1) ++ (if p.ready then 1#1 else 0#1) := by
  rw [Sfp.sstat, flagBit_eq_ite, flagBit_eq_ite]

end Sys2Proof.Machine

/-! ## The obligation of 20_memory.md -/

namespace Sys2Proof.Proofs

open Sys2Proof.Machine

/-- Settles O52: each address is the row of the map that its number picks. -/
theorem rreadReadsTheRegisterMap : Obligations.RreadReadsTheRegisterMap := by
  refine ⟨decode_rread, fun s => ⟨?sstat, ?shcnt, ?sbcnt, ?spcnt, ?rxId, ?rxLen, ?rxCmd, ?rxP, ?rxCks, ?rxCkcalc,
    ?gidx, ?acc, ?arate, ?angle, ?gbuf, ?ckaccLow, ?ckaccHigh, ?ckres, ?unmapped⟩⟩
  case sstat =>
    rw [exec_rread_sstat, Sfp.sstat_eq]
    cases s.sfp.sstate <;> rfl
  case shcnt | sbcnt | spcnt | gidx => exact exec_rread_narrow (by decide) rfl
  case rxId | rxLen | rxCmd | rxCks | rxCkcalc | ckaccLow | ckaccHigh => exact exec_rread_mapped rfl
  case rxP | acc | arate | angle | gbuf =>
    refine exec_rread_file (by decide) fun a hlo hhi => ?_
    simp (disch := omega) only [regMap, if_neg, if_pos]
  case ckres =>
    rw [← ckres_eq_not_low]
    exact exec_rread_mapped rfl
  case unmapped => exact fun a ha => exec_rread_unmapped (regMap_unmapped s ha)

end Sys2Proof.Proofs

/-!
SUPPORT. The opcode map as one equivalence: a word decodes to an op exactly when its two fields are the op's (R62),
and an op with these fields exists exactly when the fields are legal (R64, R65). The mask 0xFF00 reads the first field.
-/

namespace Sys2Proof

/-! ## The decoder by the fields of a word -/

theorem fields_of_decode {w : Word} {i : Instr} (h : decode w = .op i) : opcOf w = i.opc ∧ opndOf w = i.opnd := by
  simp only [decode] at h
  split_ifs at h with h10 h20 h21 h22 h23 h30 h31 h32 h40
  · cases h; exact ⟨h10, rfl⟩
  · cases h; exact ⟨h20, rfl⟩
  · obtain ⟨h0, rfl⟩ := decodeBare_eq_op.mp h; exact ⟨h21, h0⟩
  · obtain ⟨h0, rfl⟩ := decodeBare_eq_op.mp h; exact ⟨h22, h0⟩
  · obtain ⟨h0, rfl⟩ := decodeBare_eq_op.mp h; exact ⟨h23, h0⟩
  · obtain ⟨h0, rfl⟩ := decodeBare_eq_op.mp h; exact ⟨h30, h0⟩
  · cases h; exact ⟨h31, rfl⟩
  · cases h; exact ⟨h32, rfl⟩
  · cases h; exact ⟨h40, rfl⟩

/-- R62 in one line: the op of a word is the one whose OPC and OPND stand in its fields. -/
theorem decode_eq_op_iff {w : Word} {i : Instr} : decode w = .op i ↔ opcOf w = i.opc ∧ opndOf w = i.opnd := by
  refine ⟨fields_of_decode, fun ⟨hopc, hopnd⟩ => ?_⟩
  simp only [decode, hopc, hopnd]
  cases i <;> rfl

/-- The family of Laws/PerInstr.lean over every op. -/
theorem opWord_statement : ∀ i : Instr, Laws.OpWord.Statement i
  | .gfeed b => Laws.OpWord.gfeed b
  | .sfeed b => Laws.OpWord.sfeed b
  | .spoll => Laws.OpWord.spoll
  | .stake => Laws.OpWord.stake
  | .sclr => Laws.OpWord.sclr
  | .ckclr => Laws.OpWord.ckclr
  | .ckacc b => Laws.OpWord.ckacc b
  | .ckval b => Laws.OpWord.ckval b
  | .rread a => Laws.OpWord.rread a

theorem decode_encode (i : Instr) : decode (encode i) = .op i := by
  obtain ⟨hopc, hopnd, -⟩ := opWord_statement i
  exact decode_eq_op_iff.mpr ⟨hopc, hopnd⟩

theorem encode_of_decode {w : Word} {i : Instr} (h : decode w = .op i) : encode i = w := by
  obtain ⟨hopc, hopnd⟩ := decode_eq_op_iff.mp h
  rw [encode, opWord, ← hopc, ← hopnd, append_fields]

theorem exists_illegal_of_ne_op {w : Word} (h : ∀ i, decode w ≠ .op i) : ∃ why, decode w = .illegal why := by
  cases hd : decode w with
  | op i => exact absurd hd (h i)
  | illegal why => exact ⟨why, rfl⟩

/-! ## Match and mask -/

/-- The mask 0xFF00 leaves OPC in its place. -/
theorem and_highByteMask (w : Word) : w &&& 0xFF00#16 = opcOf w ++ 0x00#8 := by
  have hones : opcOf w &&& 0xFF#8 = opcOf w := BitVec.and_allOnes
  calc w &&& 0xFF00#16
    _ = (opcOf w ++ opndOf w) &&& (0xFF#8 ++ 0x00#8) := by rw [append_fields]; rfl
    _ = (opcOf w &&& 0xFF#8) ++ (opndOf w &&& 0x00#8) := BitVec.and_append
    _ = opcOf w ++ 0x00#8 := by rw [hones, BitVec.and_zero]

/-- A word that matches an op's OPC under the mask `m` of its row and holds its OPND is that op. -/
theorem decode_of_highByte {w m : Word} {i : Instr} (hw : w &&& 0xFF00#16 = m) (hopc : opcOf m = i.opc)
    (hopnd : opndOf w = i.opnd) : decode w = .op i := by
  refine decode_eq_op_iff.mpr ⟨?_, hopnd⟩
  rw [← hopc, ← hw, and_highByteMask, opcOf_append]

theorem highByte_of_decode {w : Word} {i : Instr} (h : decode w = .op i) : w &&& 0xFF00#16 = i.opc ++ 0x00#8 := by
  rw [and_highByteMask, (decode_eq_op_iff.mp h).1]

/-! ## Legal words -/

theorem legalOpWord_iff {opc opnd : Byte} :
    legalOpWord opc opnd = true ↔ reservedOpcode opc = false ∧ (operandless opc = true → opnd = 0x00#8) := by
  cases h : operandless opc <;> simp [legalOpWord, h]

/-- The opcodes between R65's reserved ranges are the nine of R62's rows. -/
theorem mem_rows_of_not_reserved {opc : Byte} (h : reservedOpcode opc = false) :
    opc ∈ [0x10#8, 0x20#8, 0x21#8, 0x22#8, 0x23#8, 0x30#8, 0x31#8, 0x32#8, 0x40#8] := by
  simp only [reservedOpcode, Bool.or_eq_false_iff, Bool.and_eq_false_iff, decide_eq_false_iff_not] at h
  simp only [List.mem_cons, List.not_mem_nil, or_false]
  bv_omega

/-- Legal fields, by the ranges of R64 and R65, are the fields of an op. -/
theorem exists_instr_of_legal {opc opnd : Byte} (h : legalOpWord opc opnd = true) :
    ∃ i : Instr, i.opc = opc ∧ i.opnd = opnd := by
  obtain ⟨hrow, hbare⟩ := legalOpWord_iff.mp h
  have hmem := mem_rows_of_not_reserved hrow
  simp only [List.mem_cons, List.not_mem_nil, or_false] at hmem
  obtain rfl | rfl | rfl | rfl | rfl | rfl | rfl | rfl | rfl := hmem
  · exact ⟨.gfeed opnd, rfl, rfl⟩
  · exact ⟨.sfeed opnd, rfl, rfl⟩
  · exact ⟨.spoll, rfl, (hbare rfl).symm⟩
  · exact ⟨.stake, rfl, (hbare rfl).symm⟩
  · exact ⟨.sclr, rfl, (hbare rfl).symm⟩
  · exact ⟨.ckclr, rfl, (hbare rfl).symm⟩
  · exact ⟨.ckacc opnd, rfl, rfl⟩
  · exact ⟨.ckval opnd, rfl, rfl⟩
  · exact ⟨.rread opnd, rfl, rfl⟩

/-- The decoder accepts exactly the words that the ranges of R64 and R65 leave legal. -/
theorem exists_decode_eq_op_iff_legal {opc opnd : Byte} :
    (∃ i, decode (opc ++ opnd) = .op i) ↔ legalOpWord opc opnd = true := by
  constructor
  · rintro ⟨i, hi⟩
    obtain ⟨rfl, rfl⟩ : opc = i.opc ∧ opnd = i.opnd := by simpa using decode_eq_op_iff.mp hi
    obtain ⟨-, -, hlegal⟩ := opWord_statement i
    exact hlegal
  · intro h
    obtain ⟨i, rfl, rfl⟩ := exists_instr_of_legal h
    exact ⟨i, decode_encode i⟩

end Sys2Proof

namespace Sys2Proof.Machine

theorem perform_of_illegal {w : Word} {why : Illegal} (h : decode w = .illegal why) (s : State) :
    perform w s = .next { s with response := some 0x0F00#16 } := by
  simp only [perform, h, State.answer, respond_illegal_00]

end Sys2Proof.Machine

/-! ## The obligations of 30_encoding.md -/

namespace Sys2Proof.Proofs

open Sys2Proof.Machine

/-- Settles O2: a word that matches a row has its op's fields, and a word that decodes to an op matches its row. -/
theorem opcodeMapByMatchAndMask : Obligations.OpcodeMapByMatchAndMask := by
  refine fun w => ⟨?gfeed, ?sfeed, ?spoll, ?stake, ?sclr, ?ckclr, ?ckacc, ?ckval, ?rread, ?noRow⟩
  case gfeed | sfeed | ckacc | ckval | rread => exact fun h => decode_of_highByte h rfl rfl
  case spoll | stake | sclr | ckclr =>
    rintro rfl
    exact decode_eq_op_iff.mpr ⟨rfl, rfl⟩
  case noRow =>
    refine fun hwhole hmask => exists_illegal_of_ne_op fun i hi => ?_
    cases i with
    | spoll | stake | sclr | ckclr =>
      rw [← encode_of_decode hi] at hwhole
      exact hwhole (by decide)
    | gfeed b | sfeed b | ckacc b | ckval b | rread b =>
      rw [highByte_of_decode hi] at hmask
      exact hmask (by simp [Instr.opc])

/-- Settles O3: a word that is not legal decodes to no op, and an illegal word has the one answer. -/
theorem illegalWordOnlyAnswers : Obligations.IllegalWordOnlyAnswers := by
  refine fun opc opnd => ⟨exists_decode_eq_op_iff_legal.mpr, fun hillegal => ?_⟩
  have hnoOp : ∀ i, decode (opc ++ opnd) ≠ .op i := fun i hi => by
    simp [exists_decode_eq_op_iff_legal.mp ⟨i, hi⟩] at hillegal
  obtain ⟨why, hwhy⟩ := exists_illegal_of_ne_op hnoOp
  exact ⟨⟨why, hwhy⟩, perform_of_illegal hwhy⟩

/-- Settles O6: each expansion is the table's row with the frame's bytes written out. -/
theorem pseudoOpExpansions : Obligations.PseudoOpExpansions := by
  refine ⟨?sbytes, ?gbytes, ?sframe, ?gframe, ?ckgen⟩
  case sbytes | gbytes | ckgen => exact fun bs => rfl
  case sframe => exact fun id cmd ps _ => rfl
  case gframe => exact fun st ds x _ => rfl

end Sys2Proof.Proofs

/-!
SUPPORT. The checksum unit's three ops with their response words, in the spec's terms: the sum as a number modulo 2^16
(R84) and CKVAL's answer (R85); and the one illegal form of an op word without an operand (R64).
-/

namespace Sys2Proof

/-- The word of CKCLR with an operand byte other than 0x00 is illegal (R64, R83). -/
theorem decode_ckclr_operandNotZero {opnd : Byte} (h : opnd ≠ 0x00#8) :
    decode (0x30#8 ++ opnd) = .illegal .operandNotZero := by
  have hbare : decode (0x30#8 ++ opnd) = decodeBare .ckclr opnd := by simp [decode]
  rw [hbare, decodeBare, if_neg h]

end Sys2Proof

namespace Sys2Proof.Machine

/-! ## The accumulator -/

/-- Adding a byte wraps at 2^16: a carry out of bit 15 is dropped (R84). -/
theorem add_byte_eq_ofNat (acc : Word) (b : Byte) :
    acc + b.setWidth 16 = BitVec.ofNat 16 ((acc.toNat + b.toNat) % 2 ^ 16) := by
  have hb : (b.setWidth 16).toNat = b.toNat := BitVec.toNat_setWidth_of_le (by decide)
  apply BitVec.eq_of_toNat_eq
  rw [BitVec.toNat_add, hb, BitVec.toNat_ofNat, Nat.mod_mod]

/-- The wrap at 2^16 does not reach the low byte: 256 divides 2^16. -/
theorem low_byte_of_wrapped_sum (n : Nat) : (BitVec.ofNat 16 (n % 2 ^ 16)).toNat % 256 = n % 256 := by
  rw [BitVec.toNat_ofNat, Nat.mod_mod, Nat.mod_mod_of_dvd n (by decide)]

/-! ## The ops -/

theorem exec_ckclr (s : State) :
    exec .ckclr s = .next { s with cku := { ckacc := 0x0000#16 }, response := some 0x0000#16 } := by
  rw [exec_ckclr_next]
  simp only [State.finishCku, State.answer, respond_ok_00]

theorem exec_ckacc (b : Byte) (s : State) :
    exec (.ckacc b) s =
      .next { s with cku := { ckacc := BitVec.ofNat 16 ((s.cku.ckacc.toNat + b.toNat) % 2 ^ 16) },
                     response := some 0x0000#16 } := by
  rw [exec_ckacc_next, add_byte_eq_ofNat]
  simp only [State.finishCku, State.answer, respond_ok_00]

/-- The answer of a truth value: 0x01 for true, 0x00 for false, with status OK (R85, R111). -/
theorem respond_ok_flagByte (b : Bool) : respond .ok (flagByte b) = if b then 0x0001#16 else 0x0000#16 := by
  cases b <;> rfl

theorem exec_ckval (b : Byte) (s : State) :
    exec (.ckval b) s = .next { s with response := some (if ckres s.cku.ckacc = b then 0x0001#16 else 0x0000#16) } := by
  rw [exec_ckval_next]
  simp only [State.answer, respond_ok_flagByte, beq_iff_eq]

/-- CKRES of a cleared accumulator is the checksum of no bytes (R83). -/
theorem ckres_zero : ckres 0x0000#16 = 0xFF#8 := by decide

/-- Address 0x52 is CKRES (R42). -/
theorem regMap_ckres (s : State) : regMap s 0x52#8 = some (ckres s.cku.ckacc) := rfl

end Sys2Proof.Machine

/-! ## The obligations of 40_checksum.md -/

namespace Sys2Proof.Proofs

open Sys2Proof.Machine

/-- Settles O15: CKCLR's words by its operand, its next state, and CKRES of an accumulator at 0. -/
theorem ckclrClearsAccumulator : Obligations.CkclrClearsAccumulator :=
  ⟨decode_encode .ckclr, fun _ h => decode_ckclr_operandNotZero h, fun s =>
    ⟨exec_ckclr s, by rw [regMap_ckres, ckres_zero]⟩⟩

/-- Settles O16: the sum wraps at 2^16, and the wrap keeps the low byte. -/
theorem ckaccAddsOneByte : Obligations.CkaccAddsOneByte :=
  ⟨fun b => decode_encode (.ckacc b), fun s b => ⟨exec_ckacc b s, low_byte_of_wrapped_sum _⟩⟩

/-- Settles O17: CKVAL's answer compares CKRES, the inverted low byte of the accumulator, with its operand. -/
theorem ckvalComparesByte : Obligations.CkvalComparesByte :=
  ⟨fun b => decode_encode (.ckval b), fun s b => exec_ckval b s⟩

end Sys2Proof.Proofs

/-!
SUPPORT. GFEED said once for each place in a frame: under the gyro invariant a byte that leaves GIDX below 11 is stored
and counted (R92), and the eleventh dispatches the frame (R93, R94). And which ops write the gyro registers at all (R96).
-/

namespace Sys2Proof.Machine

/-! ## Storing a byte -/

/-- Under the invariant GIDX + 1 does not wrap (R29). -/
theorem Gfa.toNat_gidx_add_one {g : Gfa} (hg : g.Inv) : (g.gidx + 1#4).toNat = g.gidx.toNat + 1 := by
  have hlt : g.gidx.toNat < 11 := hg.1
  rw [BitVec.toNat_add, BitVec.toNat_ofNat]
  omega

/-- After the write the frame begins with the sync byte: the byte just written if it opens the frame, else the one
that opened it, which no later write reaches (R33, R91). -/
theorem Gfa.store_sync {g : Gfa} {b : Byte} (hg : g.Inv) (hb : g.gidx = 0#4 → b = 0x55#8) :
    byteAt (g.store b).gbuf 0 = 0x55#8 := by
  rw [Gfa.store_gbuf, byteAt_eq _ 0 (by decide)]
  by_cases h0 : g.gidx = 0#4
  · simp [h0, hb h0]
  · have hne : g.gidx.toNat ≠ 0 := fun h => h0 (BitVec.eq_of_toNat_eq h)
    rw [Vector.getElem_setIfInBounds_ne _ hne, ← byteAt_eq g.gbuf 0 (by decide)]
    exact hg.2 h0

/-- The eleventh byte is written to GBUF[10]. -/
theorem Gfa.store_gbuf_last {g : Gfa} (h : g.gidx = 10#4) (b : Byte) : (g.store b).gbuf = g.gbuf.set 10 b := by
  apply Vector.ext
  intro k hk
  rw [Gfa.store_gbuf, h, Vector.getElem_setIfInBounds, Vector.getElem_set]
  rfl

/-- The eleventh byte leaves the ten before it alone. -/
theorem Gfa.byteAt_store_last {g : Gfa} (h : g.gidx = 10#4) (b : Byte) (k : Nat) (hk : k < 10) :
    byteAt (g.store b).gbuf k = g.gbuf[k] := by
  rw [Gfa.store_gbuf_last h, byteAt_eq _ k (Nat.lt_succ_of_lt hk), Vector.getElem_set_ne _ _ (by omega)]

/-- The payload of a whole frame is what GBUF[2..9] held before the eleventh byte. -/
theorem Gfa.payload_store_last {g : Gfa} (h : g.gidx = 10#4) (b : Byte) :
    (g.store b).payload = Vector.ofFn fun k : Fin 8 => g.gbuf[2 + k.val] := by
  apply Vector.ext
  intro k (hk : k < 8)
  rw [Gfa.payload_getElem _ k hk, Gfa.byteAt_store_last h b (2 + k) (by omega), Vector.getElem_ofFn]

/-! ## Feeding a byte -/

/-- A byte that leaves the frame incomplete (R92). -/
theorem Gfa.feed_of_incomplete {g : Gfa} {b : Byte} (hg : g.Inv) (hn : g.gidx.toNat < 10)
    (hb : g.gidx = 0#4 → b = 0x55#8) :
    g.feed b = (g.store b, ⟨.incomplete, BitVec.ofNat 8 (g.gidx.toNat + 1)⟩) := by
  have hcount := Gfa.toNat_gidx_add_one hg
  obtain ⟨hbad, -⟩ | ⟨-, -, hfeed⟩ | ⟨-, hfull, -⟩ := Gfa.feed_cases g b
  · exact absurd (Gfa.store_sync hg hb) hbad
  · have hdata : (g.gidx + 1#4).setWidth 8 = BitVec.ofNat 8 (g.gidx.toNat + 1) := by
      rw [← hcount, BitVec.ofNat_toNat]
    rw [hfeed, hdata]
  · omega

/-- The byte that completes the frame (R93). -/
theorem Gfa.feed_of_complete {g : Gfa} (hg : g.Inv) (h : g.gidx = 10#4) (b : Byte) :
    g.feed b = (g.store b).dispatch := by
  obtain ⟨hbad, -⟩ | ⟨-, hlt, -⟩ | ⟨-, -, hfeed⟩ := Gfa.feed_cases g b
  · exact absurd (Gfa.store_sync hg (by simp [h])) hbad
  · simp [h] at hlt
  · exact hfeed

/-- GFEED of the eleventh byte, up to the dispatch: GBUF[10] is written, and the sub-type and the payload are those
already in GBUF. -/
theorem exec_gfeed_of_complete {s : State} (hg : s.gfa.Inv) (h : s.gfa.gidx = 10#4) (b : Byte) :
    exec (.gfeed b) s = .next (s.finishGfa (s.gfa.store b).dispatch) := by
  rw [exec_gfeed_of_inv hg, Gfa.feed_of_complete hg h]

/-! ## Dispatching a frame

One equation per sub-type, read off `Gfa.dispatch_cases`. -/

theorem Gfa.dispatch_acc {g : Gfa} (h : byteAt g.gbuf 1 = 0x51#8) :
    g.dispatch = ({ g with gidx := 0#4, acc := g.payload }, ⟨.complete, 0x51#8⟩) := by
  simpa [h] using g.dispatch_cases

theorem Gfa.dispatch_arate {g : Gfa} (h : byteAt g.gbuf 1 = 0x52#8) :
    g.dispatch = ({ g with gidx := 0#4, arate := g.payload }, ⟨.complete, 0x52#8⟩) := by
  simpa [h] using g.dispatch_cases

theorem Gfa.dispatch_angle {g : Gfa} (h : byteAt g.gbuf 1 = 0x53#8) :
    g.dispatch = ({ g with gidx := 0#4, angle := g.payload }, ⟨.complete, 0x53#8⟩) := by
  simpa [h] using g.dispatch_cases

theorem Gfa.dispatch_unknown {g : Gfa} (h : byteAt g.gbuf 1 ∉ [0x51#8, 0x52#8, 0x53#8]) :
    g.dispatch = ({ g with gidx := 0#4 }, ⟨.rejected, 0x02#8⟩) := by
  simp only [List.mem_cons, List.not_mem_nil, or_false, not_or] at h
  simpa [h] using g.dispatch_cases

/-! ## Who writes the gyro registers -/

/-- An op other than GFEED keeps the gyro registers (R96). -/
theorem exec_keeps_gfa {i : Instr} {s t : State} (hi : ∀ b, i ≠ .gfeed b) (h : exec i s = .next t) :
    t.gfa = s.gfa := by
  cases i with
  | gfeed b => exact absurd rfl (hi b)
  | sfeed b => obtain ⟨-, rfl⟩ := exec_sfeed_next.mp h; rfl
  | spoll => rw [← exec_spoll_next.mp h]; rfl
  | stake => obtain ⟨-, rfl⟩ | ⟨-, -, rfl⟩ := exec_stake_next.mp h <;> rfl
  | sclr => rw [← exec_sclr_next.mp h]; rfl
  | ckclr => rw [← exec_ckclr_next.mp h]; rfl
  | ckacc b => rw [← exec_ckacc_next.mp h]; rfl
  | ckval b => rw [← exec_ckval_next.mp h]; rfl
  | rread a => rw [← exec_rread_next.mp h]; rfl

/-- After the step of a reset event the gyro accumulator is at its reset value (R40). -/
theorem gfa_of_step_reset {s t : State} {g r : Bool} {rest : List Event} (h : s.schedule = .reset g r :: rest)
    (ht : step s = .next t) : t.gfa = Gfa.reset := by
  rw [step_reset h, Host.Outcome.next.injEq] at ht
  rw [← ht, serveReset_gfa]

/-- A byte received mid-frame brings GIDX back to 0 only as the eleventh. -/
theorem Gfa.gidx_eq_ten_of_feed_restarts {g : Gfa} {b : Byte} (hg : g.Inv) (h0 : g.gidx ≠ 0#4)
    (hfeed : (g.feed b).1.gidx = 0#4) : g.gidx = 10#4 := by
  by_contra h10
  have hlt : g.gidx.toNat < 11 := hg.1
  have hne : g.gidx.toNat ≠ 10 := fun h => h10 (BitVec.eq_of_toNat_eq h)
  rw [Gfa.feed_of_incomplete hg (by omega) (absurd · h0)] at hfeed
  have hcount := Gfa.toNat_gidx_add_one hg
  rw [show g.gidx + 1#4 = 0#4 from hfeed, BitVec.toNat_ofNat] at hcount
  omega

/-- Only the GFEED that completes a frame brings a GIDX that is not 0 back to 0 (R96). -/
theorem exec_restarts_gidx {i : Instr} {s t : State} (hg : s.gfa.Inv) (h : exec i s = .next t)
    (h0 : s.gfa.gidx ≠ 0#4) (ht : t.gfa.gidx = 0#4) : (∃ b, i = .gfeed b) ∧ s.gfa.gidx = 10#4 := by
  by_cases hi : ∃ b, i = .gfeed b
  · obtain ⟨b, rfl⟩ := hi
    obtain ⟨-, rfl⟩ := exec_gfeed_next.mp h
    exact ⟨⟨b, rfl⟩, Gfa.gidx_eq_ten_of_feed_restarts hg h0 ht⟩
  · rw [exec_keeps_gfa (not_exists.mp hi) h] at ht
    exact absurd ht h0

end Sys2Proof.Machine

/-! ## The obligations of 41_gyro_parser.md -/

namespace Sys2Proof.Proofs

open Sys2Proof.Machine

/-- Settles O22: the invariant keeps GBUF[0] the sync byte, so the byte is stored and counted. -/
theorem gfeedAccumulates : Obligations.GfeedAccumulates := by
  intro s b hg hn hb
  rw [exec_gfeed_of_inv hg, Gfa.feed_of_incomplete hg hn hb]
  simp only [State.finishGfa, State.answer, respond_incomplete]
  rfl

/-- Settles O23: the eleventh byte dispatches the payload GBUF[2..9] by the sub-type GBUF[1]. -/
theorem gfeedDispatchesKnownSubtype : Obligations.GfeedDispatchesKnownSubtype := by
  intro s b hg h10
  have hst := Gfa.byteAt_store_last h10 b 1 (by decide)
  rw [exec_gfeed_of_complete hg h10, ← Gfa.payload_store_last h10 b, ← Gfa.store_gbuf_last h10 b, ← hst]
  refine ⟨fun h => ?acc, fun h => ?arate, fun h => ?angle⟩
  case acc => rw [Gfa.dispatch_acc h, State.finishGfa, State.answer, respond_complete_51]; rfl
  case arate => rw [Gfa.dispatch_arate h, State.finishGfa, State.answer, respond_complete_52]; rfl
  case angle => rw [Gfa.dispatch_angle h, State.finishGfa, State.answer, respond_complete_53]; rfl

/-- Settles O24: the eleventh byte of a frame of unknown sub-type only resets GIDX. -/
theorem gfeedDropsUnknownSubtype : Obligations.GfeedDropsUnknownSubtype := by
  intro s b hg h10
  have hst := Gfa.byteAt_store_last h10 b 1 (by decide)
  rw [exec_gfeed_of_complete hg h10, ← Gfa.store_gbuf_last h10 b, ← hst]
  intro h
  rw [Gfa.dispatch_unknown h, State.finishGfa, State.answer, respond_rejected_02]
  rfl

/-- Settles O26: GFEED by its next state, the other ops by `exec_keeps_gfa`, and GIDX's way back to 0 by the one
place in a frame where the invariant allows it. -/
theorem gyroUnitIndependent : Obligations.GyroUnitIndependent := by
  refine ⟨?frame, ?reads, fun i s t => exec_keeps_gfa, fun s t g r rest => gfa_of_step_reset,
    fun i s t => exec_restarts_gidx⟩
  case frame =>
    intro s b t h
    obtain ⟨-, rfl⟩ := exec_gfeed_next.mp h
    exact ⟨rfl, rfl⟩
  case reads =>
    intro s s' b t hs h
    obtain ⟨hlt, rfl⟩ := exec_gfeed_next.mp h
    refine ⟨s'.finishGfa (s'.gfa.feed b), exec_gfeed_next.mpr ⟨hs ▸ hlt, rfl⟩, ?_⟩
    simp [hs]

end Sys2Proof.Proofs

/-!
SUPPORT. SFEED said once for each place in a frame, with the accepted ranges as numbers: the parser moves on or aborts
(R99 to R103), stores a parameter (R104) or completes (R105); what an SFEED that answers REJECTED can be (R106, R107);
and the servo ops without an operand with their response words (R111 to R113).
-/

namespace Sys2Proof

/-- The word of any op without an operand is illegal with an operand byte other than 0x00 (R64). -/
theorem decode_operandless {opc opnd : Byte} (hopc : operandless opc = true) (h : opnd ≠ 0x00#8) :
    decode (opc ++ opnd) = .illegal .operandNotZero := by
  simp only [operandless, Bool.or_eq_true, beq_iff_eq] at hopc
  obtain ((rfl | rfl) | rfl) | rfl := hopc <;> simp [decode, decodeBare, h]

end Sys2Proof

namespace Sys2Proof.Machine

/-! ## The feed in each place of a frame -/

theorem Sfp.feed_of_awaitHeader1 {p : Sfp} (h : p.sstate = .awaitHeader1) (b : Byte) :
    p.feed b = (if b = 0x55#8 then { p with sstate := .awaitHeader2, shcnt := 1#2 } else p, incomplete) := by
  simp only [Sfp.feed, h, Sfp.feedHeader1]
  split <;> rfl

theorem Sfp.feed_of_awaitHeader2 {p : Sfp} (h : p.sstate = .awaitHeader2) (b : Byte) :
    p.feed b =
      if b = 0x55#8 then ({ p with sstate := .readId, shcnt := 2#2, sbcnt := 2#4, spcnt := 0#3 }, incomplete)
      else p.abort 0x04#8 := by
  simp only [Sfp.feed, h, Sfp.feedHeader2]

theorem Sfp.feed_of_readId {p : Sfp} (h : p.sstate = .readId) (b : Byte) :
    p.feed b =
      if b.toNat ≤ 254 then ({ p with rxId := b, sbcnt := 3#4, sstate := .readLength }, incomplete)
      else p.abort 0x01#8 := by
  simp only [Sfp.feed, h, Sfp.feedId]
  rfl

theorem Sfp.feed_of_readLength {p : Sfp} (h : p.sstate = .readLength) (b : Byte) :
    p.feed b =
      if 3 ≤ b.toNat ∧ b.toNat ≤ 7 then ({ p with rxLen := b, sbcnt := 4#4, sstate := .readCommand }, incomplete)
      else p.abort 0x02#8 := by
  simp only [Sfp.feed, h, Sfp.feedLength]
  rfl

theorem Sfp.feed_of_readCommand {p : Sfp} (h : p.sstate = .readCommand) (b : Byte) :
    p.feed b =
      if 1 ≤ b.toNat ∧ b.toNat ≤ 0x36 then
        ({ p with rxCmd := b, sbcnt := 5#4, spcnt := 0#3,
                  sstate := if p.rxLen.toNat = 3 then .readChecksum else .readParams }, incomplete)
      else p.abort 0x03#8 := by
  have hlen : p.rxLen = 3#8 ↔ p.rxLen.toNat = 3 := BitVec.toNat_inj.symm
  simp only [Sfp.feed, h, Sfp.feedCommand, hlen]
  rfl

theorem Sfp.feed_of_readParams {p : Sfp} (h : p.sstate = .readParams) (b : Byte) : p.feed b = p.feedParam b := by
  simp only [Sfp.feed, h]

/-! ## Moving on or aborting -/

theorem State.finishSfp_incomplete (s : State) (p : Sfp) :
    s.finishSfp (p, incomplete) = { s with sfp := p, response := some 0x0100#16 } := by
  rw [State.finishSfp, State.answer, incomplete, respond_incomplete_00]

theorem State.finishSfp_abort (s : State) (p : Sfp) (c : Byte) :
    s.finishSfp (p.abort c) = { s with sfp := p.clearTransient, response := some (0x03#8 ++ c) } := by
  rw [State.finishSfp, State.answer, Sfp.abort, respond_rejected]

/-- SFEED where a byte is either accepted, under the condition `ok`, or aborts the frame with `code`. -/
theorem exec_sfeed_of_accept_or_abort {s : State} {b code : Byte} {p : Sfp} {ok : Prop} [Decidable ok]
    (hi : s.sfp.Inv) (hfeed : s.sfp.feed b = if ok then (p, incomplete) else s.sfp.abort code) :
    exec (.sfeed b) s =
      if ok then .next { s with sfp := p, response := some 0x0100#16 }
      else .next { s with sfp := s.sfp.clearTransient, response := some (0x03#8 ++ code) } := by
  rw [exec_sfeed_of_inv hi, hfeed]
  split
  · rw [State.finishSfp_incomplete]
  · rw [State.finishSfp_abort]

/-- Where a byte is either accepted or aborts the frame, a rejection is the abort. -/
theorem abort_of_rejected {p q : Sfp} {code c : Byte} {ok : Prop} [Decidable ok] {r : Sfp × Answer}
    (hr : r = if ok then (q, incomplete) else p.abort code) (h : r.2 = ⟨.rejected, c⟩) :
    r = p.abort c ∧ c = code ∧ ¬ok := by
  by_cases hok : ok
  · simp [hr, hok, incomplete] at h
  · rw [if_neg hok] at hr
    obtain rfl : code = c := by simpa [hr, Sfp.abort] using h
    exact ⟨hr, rfl, hok⟩

/-- What a byte that is answered REJECTED can be: the frame is aborted, and the code names the place in the frame and
the bytes not accepted there (R106, R107). -/
theorem Sfp.feed_rejected {p : Sfp} {b c : Byte} (h : (p.feed b).2 = ⟨.rejected, c⟩) :
    p.feed b = p.abort c ∧
      ((c = 0x01#8 ∧ p.sstate = .readId ∧ ¬b.toNat ≤ 254) ∨
       (c = 0x02#8 ∧ p.sstate = .readLength ∧ ¬(3 ≤ b.toNat ∧ b.toNat ≤ 7)) ∨
       (c = 0x03#8 ∧ p.sstate = .readCommand ∧ ¬(1 ≤ b.toNat ∧ b.toNat ≤ 0x36)) ∨
       (c = 0x04#8 ∧ p.sstate = .awaitHeader2 ∧ b ≠ 0x55#8)) := by
  cases hs : p.sstate with
  | awaitHeader1 => simp [Sfp.feed_of_awaitHeader1 hs, incomplete] at h
  | awaitHeader2 =>
    obtain ⟨habort, hc, hb⟩ := abort_of_rejected (Sfp.feed_of_awaitHeader2 hs b) h
    exact ⟨habort, .inr (.inr (.inr ⟨hc, rfl, hb⟩))⟩
  | readId =>
    obtain ⟨habort, hc, hb⟩ := abort_of_rejected (Sfp.feed_of_readId hs b) h
    exact ⟨habort, .inl ⟨hc, rfl, hb⟩⟩
  | readLength =>
    obtain ⟨habort, hc, hb⟩ := abort_of_rejected (Sfp.feed_of_readLength hs b) h
    exact ⟨habort, .inr (.inl ⟨hc, rfl, hb⟩)⟩
  | readCommand =>
    obtain ⟨habort, hc, hb⟩ := abort_of_rejected (Sfp.feed_of_readCommand hs b) h
    exact ⟨habort, .inr (.inr (.inl ⟨hc, rfl, hb⟩))⟩
  | readParams => simp [Sfp.feed_of_readParams hs, Sfp.feedParam, incomplete] at h
  | readChecksum => simp [Sfp.feed_of_readChecksum hs, Sfp.feedChecksum] at h
  | done => simp [Sfp.feed, hs, incomplete] at h

/-- An SFEED whose response is REJECTED with `c` aborted the frame with `c`. -/
theorem answer_of_rejected_response {s : State} {r : Sfp × Answer} {c : Byte}
    (h : (s.finishSfp r).response = some (0x03#8 ++ c)) : r.2 = ⟨.rejected, c⟩ := by
  rw [State.finishSfp_response, Option.some.injEq, ← respond_rejected] at h
  obtain ⟨hstatus, hdata⟩ := respond_inj h
  rw [← hstatus, ← hdata]

/-! ## Parameters -/

theorem ofNat_toNat_add_one {n : Nat} (x : BitVec n) : BitVec.ofNat n (x.toNat + 1) = x + 1#n := by
  rw [BitVec.ofNat_add, BitVec.ofNat_toNat, BitVec.setWidth_eq]

/-- In READ_PARAMS a parameter is still missing, and there are at most four (R28, R73). -/
theorem Sfp.spcnt_lt_of_readParams {p : Sfp} (hi : p.Inv) (h : p.sstate = .readParams) : p.spcnt.toNat < 4 := by
  obtain ⟨hcount, hfields, -⟩ := hi
  simp only [Sfp.countersAgree, h, Bool.and_eq_true, decide_eq_true_eq] at hcount
  simp only [Sfp.fieldsLegal, h, Bool.and_eq_true, Sfp.lenLegal_iff] at hfields
  obtain ⟨-, hmissing⟩ := hcount
  obtain ⟨⟨⟨-, hmax⟩, -⟩, -⟩ := hfields
  omega

/-- With a register left for it, the byte is stored and counted (R104). -/
theorem Sfp.feedParam_eq {p : Sfp} (h : p.spcnt.toNat < 4) (b : Byte) :
    p.feedParam b =
      ({ p with rxP := p.rxP.set p.spcnt.toNat b h,
                spcnt := BitVec.ofNat 3 (p.spcnt.toNat + 1),
                sbcnt := BitVec.ofNat 4 (p.sbcnt.toNat + 1),
                sstate := if p.spcnt.toNat + 1 = p.rxLen.toNat - 3 then .readChecksum else .readParams },
        incomplete) := by
  have hset : p.rxP.setIfInBounds p.spcnt.toNat b = p.rxP.set p.spcnt.toNat b h := by
    apply Vector.ext
    intro k hk
    rw [Vector.getElem_setIfInBounds, Vector.getElem_set]
  have hcount : (p.spcnt + 1#3).toNat = p.spcnt.toNat + 1 := by
    rw [BitVec.toNat_add, BitVec.toNat_ofNat]
    omega
  simp only [Sfp.feedParam, hset, hcount, ofNat_toNat_add_one]

/-! ## Taking a frame -/

/-- The validator compares CKS of the covered bytes with the received checksum byte (R82). -/
theorem Sfp.valid_iff (p : Sfp) : p.valid = true ↔ cks p.fields = p.rxCks := by
  simp [Sfp.valid]

/-- STAKE with READY = 1 and a length in range: the latch is claimed, and the answer is the validator's (R112). -/
theorem exec_stake_of_ready {s : State} (hr : s.sfp.ready = true) (hl : s.sfp.lenLegal = true) :
    exec .stake s =
      .next { s with sfp := s.sfp.clearReady,
                     response := some (if cks s.sfp.fields = s.sfp.rxCks then 0x0200#16 else 0x0300#16) } := by
  refine exec_stake_next.mpr (.inr ⟨hr, hl, ?_⟩)
  simp only [State.finishSfp, State.answer, Sfp.valid_iff, apply_ite (respond · 0x00#8), respond_complete_00,
    respond_rejected_00]

theorem exec_stake_of_not_ready {s : State} (hr : s.sfp.ready = false) :
    exec .stake s = .next { s with response := some 0x0100#16 } :=
  exec_stake_next.mpr (.inl ⟨hr, rfl⟩)

theorem exec_spoll (s : State) :
    exec .spoll s =
      .next { s with sfp := s.sfp.clearReady,
                     response := some (if s.sfp.ready = true then 0x0001#16 else 0x0000#16) } := by
  rw [exec_spoll_next]
  simp only [State.finishSfp, State.answer, respond_ok_flagByte]

theorem exec_sclr (s : State) :
    exec .sclr s = .next { s with sfp := s.sfp.clearTransient, response := some 0x0000#16 } := by
  rw [exec_sclr_next]
  simp only [State.finishSfp, State.answer, respond_ok_00]

end Sys2Proof.Machine

/-! ## The obligations of 42_servo_parser.md -/

namespace Sys2Proof.Proofs

open Sys2Proof.Machine

/-- Settles O29: either way the answer is INCOMPLETE, and only a sync byte changes the parser. -/
theorem sfeedAwaitHeader1 : Obligations.SfeedAwaitHeader1 := by
  intro s b hi hs
  rw [exec_sfeed_of_inv hi, Sfp.feed_of_awaitHeader1 hs, State.finishSfp_incomplete]
  split <;> rfl

/-- Settles O30: the sync byte is the one byte accepted. -/
theorem sfeedAwaitHeader2 : Obligations.SfeedAwaitHeader2 :=
  fun _ b hi hs => exec_sfeed_of_accept_or_abort hi (Sfp.feed_of_awaitHeader2 hs b)

/-- Settles O31: the bytes accepted are the IDs of R74. -/
theorem sfeedReadId : Obligations.SfeedReadId :=
  fun _ b hi hs => exec_sfeed_of_accept_or_abort hi (Sfp.feed_of_readId hs b)

/-- Settles O32: the bytes accepted are the lengths of R73. -/
theorem sfeedReadLength : Obligations.SfeedReadLength :=
  fun _ b hi hs => exec_sfeed_of_accept_or_abort hi (Sfp.feed_of_readLength hs b)

/-- Settles O33: the bytes accepted are the commands of R75, and RX_LEN says whether parameters follow. -/
theorem sfeedReadCommand : Obligations.SfeedReadCommand :=
  fun _ b hi hs => exec_sfeed_of_accept_or_abort hi (Sfp.feed_of_readCommand hs b)

/-- Settles O34: the invariant leaves a register for the parameter, so the write is in bounds. -/
theorem sfeedReadParams : Obligations.SfeedReadParams := by
  intro s b hi hs
  have hlt := Sfp.spcnt_lt_of_readParams hi hs
  refine ⟨hlt, ?_⟩
  rw [exec_sfeed_of_inv hi, Sfp.feed_of_readParams hs, Sfp.feedParam_eq hlt, State.finishSfp_incomplete]

/-- Settles O35: RX_CKCALC and CKOK are `Sfp.recordVerdict`'s, of the fields as they were before the byte. -/
theorem sfeedReadChecksumCompletes : Obligations.SfeedReadChecksumCompletes := by
  intro s b hi hs
  rw [exec_sfeed_of_inv hi, Sfp.feed_of_readChecksum hs, Sfp.feedChecksum, State.finishSfp, State.answer,
    respond_complete_00]
  rfl

/-- Settles O36: a response REJECTED comes from an abort, at one of the four places that can abort. -/
theorem abortChangesTransientStateOnly : Obligations.AbortChangesTransientStateOnly := by
  intro s t b c _ h hresponse
  obtain ⟨-, rfl⟩ := exec_sfeed_next.mp h
  obtain ⟨habort, hcause⟩ := Sfp.feed_rejected (answer_of_rejected_response hresponse)
  refine ⟨by rw [habort, State.finishSfp_abort]; rfl, ?_⟩
  obtain ⟨hc, hs, hb⟩ | ⟨hc, hs, hb⟩ | ⟨hc, hs, hb⟩ | hheader := hcause
  · exact .inl ⟨hc, hs, by bv_omega⟩
  · exact .inr (.inl ⟨hc, hs, by omega⟩)
  · exact .inr (.inr (.inl ⟨hc, hs, by bv_omega⟩))
  · exact .inr (.inr (.inr hheader))

/-- Settles O42: SPOLL's words by its operand, and its next state in every state. -/
theorem spollReadsAndClearsReady : Obligations.SpollReadsAndClearsReady :=
  ⟨decode_encode .spoll, fun _ => decode_operandless rfl, exec_spoll⟩

/-- Settles O43: STAKE's words by its operand, Wait by READY, and else the validator's verdict. -/
theorem stakeClaimsAndValidates : Obligations.StakeClaimsAndValidates :=
  ⟨decode_encode .stake, fun _ => decode_operandless rfl, fun _ => exec_stake_of_not_ready,
    fun s hr hmin hmax => exec_stake_of_ready hr (s.sfp.lenLegal_iff.mpr ⟨hmin, hmax⟩)⟩

/-- Settles O44: SCLR's words by its operand, and its next state in every state. -/
theorem sclrResetsTransientState : Obligations.SclrResetsTransientState :=
  ⟨decode_encode .sclr, fun _ => decode_operandless rfl, exec_sclr⟩

end Sys2Proof.Proofs

/-!
SUPPORT. Every op keeps the invariants of both parsers: SFEED by the place in a frame (R28), GFEED by what one byte can
do to the accumulator (R29, R33). From it every step keeps them, and no step stops.
-/

namespace Sys2Proof.Machine

/-! ## The servo parser's invariant -/

/-- Back in AWAIT_HEADER1 the invariant asks nothing of the current frame's registers. -/
theorem Sfp.Inv.clearTransient {p : Sfp} (h : p.Inv) : p.clearTransient.Inv := by
  obtain ⟨-, -, hregisters⟩ := h
  exact ⟨rfl, rfl, hregisters⟩

theorem Sfp.Inv.clearReady {p : Sfp} (h : p.Inv) : p.clearReady.Inv := by
  obtain ⟨hcount, hfields, hid, hlen, hcmd, -⟩ := h
  exact ⟨hcount, hfields, hid, hlen, hcmd, nofun⟩

/-- Where a byte is either accepted or aborts the frame, the accepted byte is the only case to look at. -/
theorem Sfp.inv_of_accept_or_abort {p q : Sfp} {code : Byte} {ok : Prop} [Decidable ok] {r : Sfp × Answer}
    (hp : p.Inv) (hr : r = if ok then (q, incomplete) else p.abort code) (hq : ok → q.Inv) : r.1.Inv := by
  subst hr
  split
  · exact hq ‹ok›
  · exact hp.clearTransient

theorem Sfp.feed_inv_of_awaitHeader1 {p : Sfp} (hp : p.Inv) (hs : p.sstate = .awaitHeader1) (b : Byte) :
    (p.feed b).1.Inv := by
  rw [Sfp.feed_of_awaitHeader1 hs]
  split
  · obtain ⟨hcount, -, hregisters⟩ := hp
    refine ⟨?_, rfl, hregisters⟩
    simp only [Sfp.countersAgree, hs, Bool.and_eq_true] at hcount ⊢
    obtain ⟨⟨-, hsb⟩, hsp⟩ := hcount
    exact ⟨⟨rfl, hsb⟩, hsp⟩
  · exact hp

theorem Sfp.feed_inv_of_awaitHeader2 {p : Sfp} (hp : p.Inv) (hs : p.sstate = .awaitHeader2) (b : Byte) :
    (p.feed b).1.Inv := by
  refine Sfp.inv_of_accept_or_abort hp (Sfp.feed_of_awaitHeader2 hs b) fun _ => ?_
  obtain ⟨-, -, hregisters⟩ := hp
  exact ⟨rfl, rfl, hregisters⟩

theorem Sfp.feed_inv_of_readId {p : Sfp} (hp : p.Inv) (hs : p.sstate = .readId) (b : Byte) :
    (p.feed b).1.Inv := by
  refine Sfp.inv_of_accept_or_abort hp (Sfp.feed_of_readId hs b) fun hb => ?_
  obtain ⟨hcount, -, -, hregisters⟩ := hp
  refine ⟨?_, rfl, hb, hregisters⟩
  simp only [Sfp.countersAgree, hs, Bool.and_eq_true] at hcount ⊢
  obtain ⟨⟨hsh, -⟩, hsp⟩ := hcount
  exact ⟨⟨hsh, rfl⟩, hsp⟩

theorem Sfp.feed_inv_of_readLength {p : Sfp} (hp : p.Inv) (hs : p.sstate = .readLength) (b : Byte) :
    (p.feed b).1.Inv := by
  refine Sfp.inv_of_accept_or_abort hp (Sfp.feed_of_readLength hs b) fun hb => ?_
  obtain ⟨hcount, -, hid, -, hcmd, -⟩ := hp
  have hlegal := (Sfp.lenLegal_iff { p with rxLen := b, sbcnt := 4#4, sstate := .readCommand }).mpr hb
  refine ⟨?_, hlegal, hid, .inr hlegal, hcmd, fun _ => hlegal⟩
  simp only [Sfp.countersAgree, hs, Bool.and_eq_true] at hcount ⊢
  obtain ⟨⟨hsh, -⟩, hsp⟩ := hcount
  exact ⟨⟨hsh, rfl⟩, hsp⟩

/-- Past READ_COMMAND (R28): SBCNT runs five ahead of SPCNT, and SSTATE says whether a parameter is missing. -/
theorem Sfp.inv_of_command_accepted {p : Sfp}
    (hs : p.sstate = if p.spcnt.toNat = p.rxLen.toNat - 3 then .readChecksum else .readParams)
    (hsh : p.shcnt = 2#2) (hsb : p.sbcnt.toNat = 5 + p.spcnt.toNat) (hsp : p.spcnt.toNat ≤ p.rxLen.toNat - 3)
    (hid : p.rxId ≤ params.sIdMax) (hlen : p.lenLegal = true)
    (hcmd : params.sCmdMin ≤ p.rxCmd ∧ p.rxCmd ≤ params.sCmdMax) : p.Inv := by
  have hrange := p.lenLegal_iff.mp hlen
  refine ⟨?_, ?_, hid, .inr hlen, .inr hcmd, fun _ => hlen⟩
  · split at hs
    · simp only [Sfp.countersAgree, hs, hsh, Bool.and_eq_true, beq_iff_eq, true_and]
      omega
    · simp only [Sfp.countersAgree, hs, hsh, Bool.and_eq_true, beq_iff_eq, decide_eq_true_eq, true_and]
      omega
  · split at hs <;> simp [Sfp.fieldsLegal, hs, hlen, hcmd]

/-- An accepted command leaves READ_COMMAND with no parameter counted yet. -/
theorem Sfp.feed_inv_of_readCommand {p : Sfp} (hp : p.Inv) (hs : p.sstate = .readCommand) (b : Byte) :
    (p.feed b).1.Inv := by
  refine Sfp.inv_of_accept_or_abort hp (Sfp.feed_of_readCommand hs b) fun hb => ?_
  obtain ⟨hcount, hfields, hid, -⟩ := hp
  simp only [Sfp.countersAgree, hs, Bool.and_eq_true, beq_iff_eq] at hcount
  simp only [Sfp.fieldsLegal, hs] at hfields
  have hrange := p.lenLegal_iff.mp hfields
  obtain ⟨⟨hsh, -⟩, -⟩ := hcount
  have hnone : p.rxLen.toNat = 3 ↔ 0 = p.rxLen.toNat - 3 := by omega
  exact Sfp.inv_of_command_accepted (if_congr hnone rfl rfl) hsh rfl (Nat.zero_le _) hid hfields hb

/-- In READ_PARAMS the frame's length and command are accepted, and a parameter is missing (R28). -/
theorem Sfp.Inv.of_readParams {p : Sfp} (hp : p.Inv) (hs : p.sstate = .readParams) :
    p.shcnt = 2#2 ∧ p.sbcnt.toNat = 5 + p.spcnt.toNat ∧ p.spcnt.toNat + 3 < p.rxLen.toNat ∧
      p.lenLegal = true ∧ params.sCmdMin ≤ p.rxCmd ∧ p.rxCmd ≤ params.sCmdMax := by
  obtain ⟨hcount, hfields, -⟩ := hp
  simp only [Sfp.countersAgree, hs, Bool.and_eq_true, beq_iff_eq, decide_eq_true_eq] at hcount
  simp only [Sfp.fieldsLegal, hs, Bool.and_eq_true, decide_eq_true_eq] at hfields
  obtain ⟨⟨hsh, hsb⟩, hsp⟩ := hcount
  obtain ⟨⟨hlen, hmin⟩, hmax⟩ := hfields
  exact ⟨hsh, hsb, hsp, hlen, hmin, hmax⟩

theorem Sfp.feed_inv_of_readParams {p : Sfp} (hp : p.Inv) (hs : p.sstate = .readParams) (b : Byte) :
    (p.feed b).1.Inv := by
  have hlt := Sfp.spcnt_lt_of_readParams hp hs
  obtain ⟨hsh, hsb, hsp, hlen, hcmd⟩ := hp.of_readParams hs
  obtain ⟨-, -, hid, -⟩ := hp
  have hspcnt : (BitVec.ofNat 3 (p.spcnt.toNat + 1)).toNat = p.spcnt.toNat + 1 :=
    Nat.mod_eq_of_lt (by omega)
  have hsbcnt : (BitVec.ofNat 4 (p.sbcnt.toNat + 1)).toNat = p.sbcnt.toNat + 1 :=
    Nat.mod_eq_of_lt (by omega)
  rw [Sfp.feed_of_readParams hs, Sfp.feedParam_eq hlt]
  exact Sfp.inv_of_command_accepted (by simp only [hspcnt]) hsh (by simp only [hspcnt, hsbcnt]; omega)
    (by simp only [hspcnt]; omega) hid hlen hcmd

/-- Completion sets READY, and the length of the completed frame is legal. -/
theorem Sfp.feed_inv_of_readChecksum {p : Sfp} (hp : p.Inv) (hs : p.sstate = .readChecksum) (b : Byte) :
    (p.feed b).1.Inv := by
  obtain ⟨-, hfields, hid, hlen, hcmd, -⟩ := hp
  simp only [Sfp.fieldsLegal, hs, Bool.and_eq_true] at hfields
  obtain ⟨⟨hlegal, -⟩, -⟩ := hfields
  rw [Sfp.feed_of_readChecksum hs]
  exact ⟨rfl, rfl, hid, hlen, hcmd, fun _ => hlegal⟩

theorem Sfp.Inv.feed {p : Sfp} (hp : p.Inv) (b : Byte) : (p.feed b).1.Inv := by
  cases hs : p.sstate with
  | awaitHeader1 => exact Sfp.feed_inv_of_awaitHeader1 hp hs b
  | awaitHeader2 => exact Sfp.feed_inv_of_awaitHeader2 hp hs b
  | readId => exact Sfp.feed_inv_of_readId hp hs b
  | readLength => exact Sfp.feed_inv_of_readLength hp hs b
  | readCommand => exact Sfp.feed_inv_of_readCommand hp hs b
  | readParams => exact Sfp.feed_inv_of_readParams hp hs b
  | readChecksum => exact Sfp.feed_inv_of_readChecksum hp hs b
  | done =>
    obtain ⟨hcount, -⟩ := hp
    simp [Sfp.countersAgree, hs] at hcount

theorem Sfp.Inv.afterOp {p : Sfp} (hp : p.Inv) (i : Instr) : (p.afterOp i).Inv := by
  cases i with
  | sfeed b => exact hp.feed b
  | spoll | stake => exact hp.clearReady
  | sclr => exact hp.clearTransient
  | gfeed | ckclr | ckacc | ckval | rread => exact hp

/-! ## The gyro accumulator's invariant -/

theorem Gfa.inv_of_gidx_zero {g : Gfa} (h : g.gidx = 0#4) : g.Inv :=
  ⟨by rw [h]; decide, fun hne => absurd h hne⟩

/-- Dispatching a frame restarts GIDX, whatever the sub-type (R93, R94). -/
theorem Gfa.dispatch_gidx (g : Gfa) : g.dispatch.1.gidx = 0#4 := by
  obtain ⟨-, h⟩ | ⟨-, h⟩ | ⟨-, h⟩ | ⟨-, -, -, h⟩ := g.dispatch_cases <;> rw [h]

/-- A byte that neither restarts GIDX nor completes the frame leaves the sync byte in GBUF[0]. -/
theorem Gfa.feed_inv (g : Gfa) (b : Byte) : (g.feed b).1.Inv := by
  obtain ⟨-, hfeed⟩ | ⟨hsync, hlt, hfeed⟩ | ⟨-, -, hfeed⟩ := g.feed_cases b <;> rw [hfeed]
  · exact Gfa.inv_of_gidx_zero rfl
  · exact ⟨hlt, fun _ => hsync⟩
  · exact Gfa.inv_of_gidx_zero (Gfa.dispatch_gidx _)

/-! ## Ops, words and steps -/

theorem exec_keeps_inv {i : Instr} {s t : State} (hs : s.Inv) (h : exec i s = .next t) : t.Inv := by
  obtain ⟨hsfp, hgfa⟩ := hs
  refine ⟨exec_sfp h ▸ hsfp.afterOp i, ?_⟩
  by_cases hi : ∃ b, i = .gfeed b
  · obtain ⟨b, rfl⟩ := hi
    obtain ⟨-, rfl⟩ := exec_gfeed_next.mp h
    exact Gfa.feed_inv s.gfa b
  · rwa [exec_keeps_gfa (not_exists.mp hi) h]

theorem perform_keeps_inv {w : Word} {s t : State} (hs : s.Inv) (h : perform w s = .next t) : t.Inv := by
  obtain ⟨i, -, hw⟩ | ⟨why, -, hw⟩ := perform_eq w s <;> rw [hw] at h
  · exact exec_keeps_inv hs h
  · cases h
    exact hs

theorem reset_inv : State.reset.Inv :=
  ⟨⟨rfl, rfl, by decide, .inl rfl, .inl rfl, nofun⟩, Gfa.inv_of_gidx_zero rfl⟩

theorem step_keeps_inv {s t : State} (hs : s.Inv) (h : step s = .next t) : t.Inv := by
  obtain ⟨-, hstep⟩ | ⟨a, rest, -, -, hstep⟩ | ⟨a, rest, w, ws, -, -, hstep⟩ | ⟨g, r, rest, -, hstep⟩ :=
    step_cases s <;> rw [hstep] at h
  · cases h
    exact hs
  · cases h
    exact hs
  · exact perform_keeps_inv (s := State.serving { s with schedule := rest } a ws) hs h
  · cases h
    exact reset_inv

/-! ## No op, word or step stops -/

theorem exec_total_of_inv {s : State} (hs : s.Inv) (i : Instr) : ∃ t, exec i s = .next t := by
  obtain ⟨hsfp, hgfa⟩ := hs
  cases i with
  | gfeed b => exact ⟨_, exec_gfeed_of_inv hgfa b⟩
  | sfeed b => exact ⟨_, exec_sfeed_of_inv hsfp b⟩
  | spoll => exact ⟨_, exec_spoll s⟩
  | stake =>
    obtain ⟨-, -, -, -, -, hready⟩ := hsfp
    cases hr : s.sfp.ready with
    | false => exact ⟨_, exec_stake_of_not_ready hr⟩
    | true => exact ⟨_, exec_stake_of_ready hr (hready hr)⟩
  | sclr => exact ⟨_, exec_sclr s⟩
  | ckclr => exact ⟨_, exec_ckclr s⟩
  | ckacc b => exact ⟨_, exec_ckacc b s⟩
  | ckval b => exact ⟨_, exec_ckval b s⟩
  | rread a => exact ⟨_, exec_rread_next.mpr rfl⟩

theorem perform_total_of_inv {s : State} (hs : s.Inv) (w : Word) : ∃ t, perform w s = .next t := by
  obtain ⟨i, -, hw⟩ | ⟨why, -, hw⟩ := perform_eq w s <;> rw [hw]
  · exact exec_total_of_inv hs i
  · exact ⟨_, rfl⟩

theorem step_total_of_inv {s : State} (hs : s.Inv) : ∃ t, step s = .next t := by
  obtain ⟨-, hstep⟩ | ⟨a, rest, -, -, hstep⟩ | ⟨a, rest, w, ws, -, -, hstep⟩ | ⟨g, r, rest, -, hstep⟩ :=
    step_cases s <;> rw [hstep]
  · exact ⟨_, rfl⟩
  · exact ⟨_, rfl⟩
  · exact perform_total_of_inv (s := State.serving { s with schedule := rest } a ws) hs w
  · exact ⟨_, rfl⟩

/-- Every op that runs returns a response word made of a status and a data byte (R60). -/
theorem exec_response {i : Instr} {s t : State} (h : exec i s = .next t) :
    ∃ st d, t.response = some (respond st d) := by
  cases i with
  | gfeed b => obtain ⟨-, rfl⟩ := exec_gfeed_next.mp h; exact ⟨_, _, rfl⟩
  | sfeed b => obtain ⟨-, rfl⟩ := exec_sfeed_next.mp h; exact ⟨_, _, rfl⟩
  | spoll => rw [← exec_spoll_next.mp h]; exact ⟨_, _, rfl⟩
  | stake => obtain ⟨-, rfl⟩ | ⟨-, -, rfl⟩ := exec_stake_next.mp h <;> exact ⟨_, _, rfl⟩
  | sclr => rw [← exec_sclr_next.mp h]; exact ⟨_, _, rfl⟩
  | ckclr => rw [← exec_ckclr_next.mp h]; exact ⟨_, _, rfl⟩
  | ckacc b => rw [← exec_ckacc_next.mp h]; exact ⟨_, _, rfl⟩
  | ckval b => rw [← exec_ckval_next.mp h]; exact ⟨_, _, rfl⟩
  | rread a => rw [← exec_rread_next.mp h]; exact ⟨_, _, rfl⟩

theorem perform_response {w : Word} {s t : State} (h : perform w s = .next t) :
    ∃ st d, t.response = some (respond st d) := by
  obtain ⟨i, -, hw⟩ | ⟨why, -, hw⟩ := perform_eq w s <;> rw [hw] at h
  · exact exec_response h
  · cases h
    exact ⟨_, _, rfl⟩

theorem run_total_of_inv (n : Nat) : ∀ {s : State}, s.Inv → ∃ t : State, Host.Core.run core n s = .next t ∧ t.Inv := by
  induction n with
  | zero => exact fun {s} hs => ⟨s, rfl, hs⟩
  | succ n ih =>
    intro s hs
    obtain ⟨u, hu⟩ := step_total_of_inv hs
    obtain ⟨t, ht, hinv⟩ := ih (step_keeps_inv hs hu)
    have hcore : core.step s = .next u := hu
    exact ⟨t, by simpa only [Host.Core.run, hcore] using ht, hinv⟩

end Sys2Proof.Machine

/-! ## The obligations over both parsers' invariants, and the round trip of 30_encoding.md -/

namespace Sys2Proof.Proofs

open Sys2Proof.Machine

/-- Settles O4: both ways, a word is its two fields. -/
theorem decodeEncodeAgree : Obligations.DecodeEncodeAgree :=
  ⟨decode_encode, fun _ _ => encode_of_decode⟩

/-- Settles O54, by the kinds of step: an op by each parser's own invariant, a reset by the reset values. -/
theorem everyStepKeepsInvariants : Obligations.EveryStepKeepsInvariants :=
  fun _ _ => step_keeps_inv

/-- Settles O55: the invariants rule every fault out, and an op that runs has a response. -/
theorem everyOpHasAResponse : Obligations.EveryOpHasAResponse := by
  refine ⟨fun w s hs => ?_, fun s hs => step_total_of_inv hs⟩
  obtain ⟨t, ht⟩ := perform_total_of_inv hs w
  obtain ⟨st, d, hresponse⟩ := perform_response ht
  exact ⟨t, ht, by simp [hresponse]⟩

/-- Settles O56, by induction on the number of steps. -/
theorem noRunStops : Obligations.NoRunStops :=
  fun n _ => run_total_of_inv n

/-- Settles O53: the reset values meet the invariants. -/
theorem invariantsHoldAtReset : Obligations.InvariantsHoldAtReset :=
  reset_inv

end Sys2Proof.Proofs

/-!
SUPPORT. What an op reads and what it leaves alone: the model's own fields (the lines, the schedule, the issuer and the
last response) enter no op, and each unit's registers are written by its own ops. And a step's hold on the lines.
-/

namespace Sys2Proof.Machine

/-! ## The world around the registers -/

/-- The registers of `s` in the world of `u`: its lines, schedule, issuer and last response. Tied to the ops by
`exec_next_inWorldOf` and `exec_fault_inWorldOf`. -/
def State.inWorldOf (s u : State) : State :=
  { u with sfp := s.sfp, gfa := s.gfa, cku := s.cku }

theorem State.inWorldOf_of_registers {s u : State} (hsfp : s.sfp = u.sfp) (hgfa : s.gfa = u.gfa)
    (hcku : s.cku = u.cku) : s.inWorldOf u = u := by
  rw [State.inWorldOf, hsfp, hgfa, hcku]

/-- An op that runs does the same to the registers in any other world, leaves that world alone, and returns the same
response. -/
theorem exec_next_inWorldOf {i : Instr} {s t : State} (u : State) (h : exec i s = .next t) :
    exec i (s.inWorldOf u) = .next { t.inWorldOf u with response := t.response } := by
  cases i with
  | gfeed b => obtain ⟨hlt, rfl⟩ := exec_gfeed_next.mp h; exact exec_gfeed_next.mpr ⟨hlt, rfl⟩
  | sfeed b => obtain ⟨hrun, rfl⟩ := exec_sfeed_next.mp h; exact exec_sfeed_next.mpr ⟨hrun, rfl⟩
  | spoll => rw [← exec_spoll_next.mp h]; exact exec_spoll_next.mpr rfl
  | stake =>
    obtain ⟨hr, rfl⟩ | ⟨hr, hl, rfl⟩ := exec_stake_next.mp h
    · exact exec_stake_next.mpr (.inl ⟨hr, rfl⟩)
    · exact exec_stake_next.mpr (.inr ⟨hr, hl, rfl⟩)
  | sclr => rw [← exec_sclr_next.mp h]; exact exec_sclr_next.mpr rfl
  | ckclr => rw [← exec_ckclr_next.mp h]; exact exec_ckclr_next.mpr rfl
  | ckacc b => rw [← exec_ckacc_next.mp h]; exact exec_ckacc_next.mpr rfl
  | ckval b => rw [← exec_ckval_next.mp h]; exact exec_ckval_next.mpr rfl
  | rread a => rw [← exec_rread_next.mp h]; exact exec_rread_next.mpr rfl

/-- An op that runs leaves the lines, the schedule and the issuer alone. -/
theorem exec_world {i : Instr} {s t : State} (h : exec i s = .next t) :
    t.lines = s.lines ∧ t.schedule = s.schedule ∧ t.issuer = s.issuer := by
  have hself : exec i s = .next { t.inWorldOf s with response := t.response } := exec_next_inWorldOf s h
  rw [h, Host.Outcome.next.injEq] at hself
  rw [hself]
  exact ⟨rfl, rfl, rfl⟩

theorem perform_lines {w : Word} {s t : State} (h : perform w s = .next t) : t.lines = s.lines := by
  obtain ⟨i, -, hw⟩ | ⟨why, -, hw⟩ := perform_eq w s <;> rw [hw] at h
  · exact (exec_world h).1
  · cases h
    rfl

/-! ## Faults -/

/-- The three places where an op faults: SFEED by its check, GFEED with GIDX above 10, STAKE with a frame ready whose
length is not legal. -/
theorem exec_fault_iff {i : Instr} {s : State} {f : Fault} :
    exec i s = .fault f ↔
      ((∃ b, i = .sfeed b) ∧ s.sfp.feedFault = some f) ∨
      ((∃ b, i = .gfeed b) ∧ 10 < s.gfa.gidx.toNat ∧ f = .gidxOutOfRange) ∨
      (i = .stake ∧ s.sfp.ready = true ∧ s.sfp.lenLegal = false ∧ f = .lengthOutOfRange) := by
  cases i with
  | sfeed b => cases hf : s.sfp.feedFault <;> simp [exec, execSfeed, hf]
  | gfeed b =>
    by_cases hg : 11 ≤ s.gfa.gidx.toNat
    · simpa [exec, execGfeed, hg, Nat.lt_of_succ_le hg] using eq_comm
    · simp [exec, execGfeed, hg, Nat.succ_le_iff.not.mp hg]
  | stake =>
    cases hr : s.sfp.ready with
    | false => simp [exec_stake_of_not_ready hr]
    | true =>
      cases hl : s.sfp.lenLegal with
      | false => simpa [exec, execStake, hr, hl] using eq_comm
      | true => simp [exec_stake_of_ready hr hl]
  | spoll => simp [exec_spoll]
  | sclr => simp [exec_sclr]
  | ckclr => simp [exec_ckclr]
  | ckacc b => simp [exec_ckacc]
  | ckval b => simp [exec_ckval]
  | rread a =>
    have hrun := exec_rread_next (a := a) (s := s).mpr rfl
    simp [hrun]

/-- An op that faults faults alike in any other world. -/
theorem exec_fault_inWorldOf {i : Instr} {s : State} {f : Fault} (u : State) (h : exec i s = .fault f) :
    exec i (s.inWorldOf u) = .fault f :=
  exec_fault_iff.mpr (exec_fault_iff (s := s) |>.mp h)

/-- SFEED faults in DONE (R98). -/
theorem Sfp.feedFault_of_done {p : Sfp} (h : p.sstate = .done) : p.feedFault = some .sstateDone :=
  if_pos h

theorem Sfp.lenLegal_eq_false {p : Sfp} (h : p.rxLen.toNat < 3 ∨ 7 < p.rxLen.toNat) : p.lenLegal = false := by
  rw [Bool.eq_false_iff, ne_eq, Sfp.lenLegal_iff]
  omega

theorem Sfp.lenAccepted_iff (p : Sfp) :
    p.lenAccepted = true ↔ p.sstate ∈ [.readCommand, .readParams, .readChecksum] := by
  unfold Sfp.lenAccepted
  cases p.sstate <;> decide

theorem Sfp.feedFault_of_illegal_length {p : Sfp} (hs : p.sstate ∈ [.readCommand, .readParams, .readChecksum])
    (hl : p.lenLegal = false) : p.feedFault = some .lengthOutOfRange := by
  have haccepted := p.lenAccepted_iff.mpr hs
  have hdone : p.sstate ≠ .done := by
    rintro h
    simp [h] at hs
  simp [Sfp.feedFault, hdone, haccepted, hl]

theorem Sfp.feedFault_of_counters {p : Sfp} (hdone : p.sstate ≠ .done)
    (hl : p.lenAccepted = true → p.lenLegal = true) (hc : p.countersAgree = false) :
    p.feedFault = some .countersDisagree := by
  have hlen : ¬(p.lenAccepted && !p.lenLegal) = true := by simpa using hl
  rw [Sfp.feedFault, if_neg hdone, if_neg hlen, hc]
  rfl

/-! ## Which op writes which unit -/

/-- An op other than CKCLR and CKACC keeps the accumulator. -/
theorem exec_keeps_cku {i : Instr} {s t : State} (hclr : i ≠ .ckclr) (hacc : ∀ b, i ≠ .ckacc b)
    (h : exec i s = .next t) : t.cku = s.cku := by
  cases i with
  | gfeed b => obtain ⟨-, rfl⟩ := exec_gfeed_next.mp h; rfl
  | sfeed b => obtain ⟨-, rfl⟩ := exec_sfeed_next.mp h; rfl
  | spoll => rw [← exec_spoll_next.mp h]; rfl
  | stake => obtain ⟨-, rfl⟩ | ⟨-, -, rfl⟩ := exec_stake_next.mp h <;> rfl
  | sclr => rw [← exec_sclr_next.mp h]; rfl
  | ckclr => exact absurd rfl hclr
  | ckacc b => exact absurd rfl (hacc b)
  | ckval b => rw [← exec_ckval_next.mp h]; rfl
  | rread a => rw [← exec_rread_next.mp h]; rfl

/-- An op of the servo parser carries another accumulator through. -/
theorem exec_servo_of_cku_changed {i : Instr} {s t : State} (c : Cku)
    (hi : (∃ b, i = .sfeed b) ∨ i = .spoll ∨ i = .stake ∨ i = .sclr) (h : exec i s = .next t) :
    exec i { s with cku := c } = .next { t with cku := c } := by
  obtain ⟨b, rfl⟩ | rfl | rfl | rfl := hi
  · obtain ⟨hrun, rfl⟩ := exec_sfeed_next.mp h
    exact exec_sfeed_next.mpr ⟨hrun, rfl⟩
  · rw [← exec_spoll_next.mp h]
    exact exec_spoll_next.mpr rfl
  · obtain ⟨hr, rfl⟩ | ⟨hr, hl, rfl⟩ := exec_stake_next.mp h
    · exact exec_stake_next.mpr (.inl ⟨hr, rfl⟩)
    · exact exec_stake_next.mpr (.inr ⟨hr, hl, rfl⟩)
  · rw [← exec_sclr_next.mp h]
    exact exec_sclr_next.mpr rfl

/-! ## Responses -/

/-- The top four bits of a response are zero, and the next four are its status (R60). -/
theorem respond_fields (st : Status) (d : Byte) :
    (respond st d).extractLsb' 12 4 = 0#4 ∧ (respond st d).extractLsb' 8 4 = statusCode st := by
  have hhigh (k : Nat) : (respond st d).extractLsb' (8 + k) 4 = (0#4 ++ statusCode st).extractLsb' k 4 := by
    rw [respond, BitVec.extractLsb'_append_eq_of_le (Nat.le_add_right 8 k), Nat.add_sub_cancel_left]
  exact ⟨(hhigh 4).trans BitVec.extractLsb'_append_eq_left, (hhigh 0).trans BitVec.extractLsb'_append_eq_right⟩

/-! ## Steps and lines -/

/-- An agent's turn performs its oldest word, in the state with the event and the word taken off. -/
theorem step_of_turn {s : State} {a : Agent} {rest : List Event} {w : Word} {ws : List Word}
    (hsched : s.schedule = .turn a :: rest) (hline : lineOf s.lines a = w :: ws) :
    step s = perform w (State.serving { s with schedule := rest } a ws) := by
  simp only [step, cycle, hsched, serveTurn, hline]

theorem step_of_idle_turn {s : State} {a : Agent} {rest : List Event} (hsched : s.schedule = .turn a :: rest)
    (hline : lineOf s.lines a = []) : step s = .next (State.quiet { s with schedule := rest }) := by
  simp only [step, cycle, hsched, serveTurn, hline]

theorem step_of_no_event {s : State} (hsched : s.schedule = []) : step s = .next s.quiet := by
  simp only [step, cycle, hsched]

/-- What a step that runs does to the lines: nothing, one word off the line of the agent served, or a reset's losses. -/
theorem step_lines_cases {s t : State} (h : step s = .next t) :
    t.lines = s.lines ∨
    (∃ a w ws, lineOf s.lines a = w :: ws ∧ t.lines = setLine s.lines ws a) ∨
    (∃ g r, s.schedule.head? = some (.reset g r) ∧
      t.lines = { s.lines with rxg := loseHead g s.lines.rxg, rxs := loseHead r s.lines.rxs }) := by
  obtain ⟨-, hstep⟩ | ⟨a, rest, -, -, hstep⟩ | ⟨a, rest, w, ws, -, hline, hstep⟩ | ⟨g, r, rest, hsched, hstep⟩ :=
    step_cases s <;> rw [hstep] at h
  · cases h
    exact .inl rfl
  · cases h
    exact .inl rfl
  · exact .inr (.inl ⟨a, w, ws, hline, perform_lines h⟩)
  · cases h
    exact .inr (.inr ⟨g, r, by rw [hsched]; rfl, rfl⟩)

/-- A reset leaves a line as it was or takes its oldest word off. -/
theorem loseHead_cases (lose : Bool) (ws : List Word) : loseHead lose ws = ws ∨ ∃ w, ws = w :: loseHead lose ws := by
  cases lose with
  | false => exact .inl rfl
  | true =>
    cases ws with
    | nil => exact .inl rfl
    | cons w ws => exact .inr ⟨w, rfl⟩

/-- A step leaves each line as it was or takes its oldest word off. -/
theorem lineOf_after_step {s t : State} (h : step s = .next t) (a : Agent) :
    lineOf t.lines a = lineOf s.lines a ∨ ∃ w, lineOf s.lines a = w :: lineOf t.lines a := by
  obtain hsame | ⟨b, w, ws, hline, hset⟩ | ⟨g, r, -, hreset⟩ := step_lines_cases h
  · exact .inl (by rw [hsame])
  · rw [hset, lineOf_setLine]
    split
    · exact .inr ⟨w, by rw [‹a = b›, hline]⟩
    · exact .inl rfl
  · rw [hreset]
    cases a with
    | rxg => exact loseHead_cases g s.lines.rxg
    | rxs => exact loseHead_cases r s.lines.rxs
    | con | grd => exact .inl rfl

/-- Unless it is a reset, a step changes at most the line of the one agent it serves. -/
theorem eq_of_lines_changed {s t : State} (h : step s = .next t) {a b : Agent}
    (hreset : ∀ g r, s.schedule.head? ≠ some (.reset g r)) (ha : lineOf t.lines a ≠ lineOf s.lines a)
    (hb : lineOf t.lines b ≠ lineOf s.lines b) : a = b := by
  obtain hsame | ⟨c, w, ws, -, hset⟩ | ⟨g, r, hr, -⟩ := step_lines_cases h
  · exact absurd (by rw [hsame]) ha
  · have hserved : ∀ d, lineOf t.lines d ≠ lineOf s.lines d → d = c := fun d hd => by
      by_contra hdc
      exact hd (by rw [hset, lineOf_setLine, if_neg hdc])
    rw [hserved a ha, hserved b hb]
  · exact absurd hr (hreset g r)

end Sys2Proof.Machine

namespace Sys2Proof.Proofs

open Sys2Proof.Machine

/-- Settles O13: an op runs or faults the same in any other world, and takes that world as it finds it. -/
theorem opsReadRegistersOnly : Obligations.OpsReadRegistersOnly := by
  intro i s s' hsfp hgfa hcku
  have hworld := State.inWorldOf_of_registers hsfp hgfa hcku
  refine ⟨fun f hf => hworld ▸ exec_fault_inWorldOf s' hf, fun t ht => ⟨?_, exec_world ht⟩⟩
  have hrun := exec_next_inWorldOf s' ht
  rw [hworld] at hrun
  exact ⟨_, hrun, rfl, rfl, rfl, rfl⟩

/-- Settles O14: each response is `respond` of one of the five statuses. -/
theorem responseWordShape : Obligations.ResponseWordShape := by
  intro w s t h
  obtain ⟨st, d, hresponse⟩ := perform_response h
  obtain ⟨htop, hstatus⟩ := respond_fields st d
  refine ⟨_, hresponse, htop, ?_⟩
  rw [hstatus]
  cases st <;> decide

/-- Settles O8: a turn takes the oldest word off the line of the agent served, and a reset takes no more than the
oldest word off any line. -/
theorem everyInterleavingInLineOrder : Obligations.EveryInterleavingInLineOrder :=
  ⟨fun s a rest _ _ hline => step_of_turn (s := { s with schedule := .turn a :: rest }) rfl hline,
    fun _ _ h => lineOf_after_step h,
    fun _ _ h _ _ hreset => eq_of_lines_changed h hreset⟩

/-- Settles O51: each op by the unit it finishes. -/
theorem unitsShareNoRegister : Obligations.UnitsShareNoRegister := by
  refine ⟨?servo, ?checksum, ?rread, fun i s c hi t ht => exec_servo_of_cku_changed _ hi ht⟩
  case servo =>
    rintro i s t hi h
    have hg : t.gfa = s.gfa := exec_keeps_gfa (by rintro b rfl; simp at hi) h
    exact ⟨hg, exec_keeps_cku (by rintro rfl; simp at hi) (by rintro b rfl; simp at hi) h⟩
  case checksum =>
    rintro i s t (rfl | ⟨b, rfl⟩ | ⟨b, rfl⟩) h <;> exact ⟨exec_sfp h, exec_keeps_gfa (by simp) h⟩
  case rread =>
    exact fun a s t h => ⟨exec_sfp h, exec_keeps_gfa (by simp) h, exec_keeps_cku (by simp) (by simp) h⟩

/-- Settles O37: each stop is one of the three places of `exec_fault_iff`. -/
theorem stopsOutsideTheInvariants : Obligations.StopsOutsideTheInvariants := by
  refine ⟨?done, ?length, ?counters, ?gidx, ?stake⟩
  case done => exact fun s b h => exec_fault_iff.mpr (.inl ⟨⟨b, rfl⟩, Sfp.feedFault_of_done h⟩)
  case length =>
    exact fun s b hs hl => exec_fault_iff.mpr
      (.inl ⟨⟨b, rfl⟩, Sfp.feedFault_of_illegal_length hs (Sfp.lenLegal_eq_false hl)⟩)
  case counters =>
    refine fun s b hdone hl hc => exec_fault_iff.mpr (.inl ⟨⟨b, rfl⟩, Sfp.feedFault_of_counters hdone ?_ hc⟩)
    exact fun ha => s.sfp.lenLegal_iff.mpr (hl (s.sfp.lenAccepted_iff.mp ha))
  case gidx => exact fun s b hg => exec_fault_iff.mpr (.inr (.inl ⟨⟨b, rfl⟩, hg, rfl⟩))
  case stake =>
    exact fun s hr hl => exec_fault_iff.mpr (.inr (.inr ⟨rfl, hr, Sfp.lenLegal_eq_false hl, rfl⟩))

/-- Settles O1: each word's fields are its op's. -/
theorem sampleWordsDecode : Obligations.SampleWordsDecode := by
  refine ⟨?_, ?_, ?_, ?_, ?_, ?_, ?_, ?_, ?_⟩ <;> exact decode_eq_op_iff.mpr ⟨rfl, rfl⟩

/-- Settles O7: the oldest word of the agent served is performed, and it is its op. -/
theorem stepRunsDecodedOp : Obligations.StepRunsDecodedOp := by
  intro s a rest w ws i hsched hline hdecode
  rw [step_of_turn hsched hline, perform, hdecode]
  rfl

/-- Settles O9: both idle steps only clear the issuer and the response. -/
theorem idleStepChangesNoRegister : Obligations.IdleStepChangesNoRegister :=
  ⟨fun _ => step_of_no_event, fun _ _ _ => step_of_idle_turn⟩

/-- Settles O11: a reset writes the reset values, and of the lines it touches only the two with a byte in flight. -/
theorem resetKeepsUndeliveredOps : Obligations.ResetKeepsUndeliveredOps :=
  fun _ _ _ _ => step_reset

/-- Settles O12, by the 256 addresses. -/
theorem registerMapAfterReset : Obligations.RegisterMapAfterReset := by
  unfold Obligations.RegisterMapAfterReset
  decide

end Sys2Proof.Proofs

/-!
SUPPORT. The streaming generator over any list of bytes (R86). GFEED over a frame: what has been received of it, one
byte more, and the whole (R89 to R94).
-/

namespace Sys2Proof.Machine

/-! ## The checksum function and the generator -/

theorem byteSum_perm {bs cs : List Byte} (h : bs.Perm cs) : byteSum bs = byteSum cs :=
  (h.map _).sum_eq

/-- CKACC of each byte adds the bytes to a sum already in the accumulator. -/
theorem execAll_ckacc (bs : List Byte) (n : Nat) (s : State) :
    execAll (bs.map .ckacc) { s with cku := { ckacc := BitVec.ofNat 16 n }, response := some 0x0000#16 } =
      .next ({ s with cku := { ckacc := BitVec.ofNat 16 (n + byteSum bs) }, response := some 0x0000#16 },
        List.replicate bs.length 0x0000#16) := by
  induction bs generalizing n with
  | nil => rfl
  | cons b bs ih =>
    have hsum : BitVec.ofNat 16 (((BitVec.ofNat 16 n).toNat + b.toNat) % 2 ^ 16) = BitVec.ofNat 16 (n + b.toNat) := by
      apply BitVec.eq_of_toNat_eq
      simp [Nat.add_mod]
    rw [List.map_cons, execAll_cons_next (exec_ckacc b _) (hsum ▸ ih (n + b.toNat)), byteSum_cons, Nat.add_assoc]
    rfl

theorem execAll_ckgen (s : State) (bs : List Byte) :
    execAll (.ckclr :: bs.map .ckacc) s =
      .next ({ s with cku := { ckacc := BitVec.ofNat 16 (byteSum bs) }, response := some 0x0000#16 },
        List.replicate (bs.length + 1) 0x0000#16) := by
  have hsum := execAll_ckacc bs 0 s
  rw [Nat.zero_add] at hsum
  exact execAll_cons_next (exec_ckclr s) hsum

theorem execAll_nil (s : State) : execAll [] s = .next (s, []) := rfl

/-- With the sum of the bytes in the accumulator, RREAD of CKRES answers their checksum and CKVAL accepts it. -/
theorem execAll_read_and_validate {s : State} {bs : List Byte} (h : s.cku.ckacc = BitVec.ofNat 16 (byteSum bs)) :
    execAll [.rread 0x52#8, .ckval (cks bs)] s =
      .next ({ s with response := some 0x0001#16 }, [0x00#8 ++ cks bs, 0x0001#16]) := by
  have hres : ckres s.cku.ckacc = cks bs := by rw [h, ckres_ofNat]
  have hread := exec_rread_mapped ((regMap_ckres s).trans (congrArg some hres))
  have hval := exec_ckval (cks bs) { s with response := some (0x00#8 ++ cks bs) }
  rw [if_pos hres] at hval
  exact execAll_cons_next hread (execAll_cons_next hval (execAll_nil _))

/-! ## Dispatch and the decoded structures -/

/-- A dispatch in one equation: the structure of the sub-type, if it is one of the three, takes the payload
(R93, R94). -/
theorem Gfa.dispatch_eq (g : Gfa) {st : Byte} (hst : byteAt g.gbuf 1 = st) :
    g.dispatch =
      ({ g with gidx := 0#4, acc := if st = 0x51#8 then g.payload else g.acc,
                arate := if st = 0x52#8 then g.payload else g.arate,
                angle := if st = 0x53#8 then g.payload else g.angle },
        if st ∈ [0x51#8, 0x52#8, 0x53#8] then ⟨.complete, st⟩ else ⟨.rejected, 0x02#8⟩) := by
  subst hst
  obtain ⟨hst, h⟩ | ⟨hst, h⟩ | ⟨hst, h⟩ | ⟨hacc, harate, hangle, h⟩ := g.dispatch_cases
  · simp [h, hst]
  · simp [h, hst]
  · simp [h, hst]
  · simp [h, hacc, harate, hangle]

/-- Under the invariant a byte received mid-frame, or the sync byte, is either one more or the eleventh. -/
theorem Gfa.feed_cases_of_inv {g : Gfa} {b : Byte} (hg : g.Inv) (hb : g.gidx = 0#4 → b = 0x55#8) :
    (g.gidx.toNat < 10 ∧ g.feed b = (g.store b, ⟨.incomplete, BitVec.ofNat 8 (g.gidx.toNat + 1)⟩)) ∨
    (g.gidx = 10#4 ∧ g.feed b = (g.store b).dispatch) := by
  have hlt : g.gidx.toNat < 11 := hg.1
  by_cases hn : g.gidx.toNat < 10
  · exact .inl ⟨hn, Gfa.feed_of_incomplete hg hn hb⟩
  · have h10 : g.gidx = 10#4 := BitVec.eq_of_toNat_eq (show g.gidx.toNat = 10 by omega)
    exact .inr ⟨h10, Gfa.feed_of_complete hg h10 b⟩

/-- A byte at GIDX = 0 that is not the sync byte is stored and rejected (R91). -/
theorem Gfa.feed_of_bad_sync {g : Gfa} {b : Byte} (h0 : g.gidx = 0#4) (hb : b ≠ 0x55#8) :
    g.feed b = ({ g with gbuf := g.gbuf.set 0 b }, ⟨.rejected, 0x01#8⟩) := by
  have hstore : (g.store b).gbuf = g.gbuf.set 0 b := by
    apply Vector.ext
    intro k hk
    rw [Gfa.store_gbuf, h0, Vector.getElem_setIfInBounds, Vector.getElem_set]
    rfl
  have hfirst : byteAt (g.store b).gbuf 0 = b := by
    rw [hstore, byteAt_eq _ 0 (by decide), Vector.getElem_set_self]
  obtain ⟨-, hfeed⟩ | ⟨hsync, -⟩ | ⟨hsync, -⟩ := g.feed_cases b
  · rw [hfeed, ← hstore, ← h0]
    rfl
  · exact absurd (hfirst ▸ hsync) hb
  · exact absurd (hfirst ▸ hsync) hb

/-- The one answer REJECTED 0x01 is that of a bad sync byte: a dispatch answers COMPLETE or REJECTED 0x02. -/
theorem Gfa.dispatch_answer_ne (g : Gfa) : g.dispatch.2 ≠ ⟨.rejected, 0x01#8⟩ := by
  rw [g.dispatch_eq rfl]
  dsimp only
  split <;> simp

/-- What a byte does to the decoded structures: nothing, or, as the eleventh, what a dispatch by GBUF[1] does. -/
theorem Gfa.feed_structures {g : Gfa} (hg : g.Inv) (b : Byte) :
    ((g.feed b).1.acc = g.acc ∧ (g.feed b).1.arate = g.arate ∧ (g.feed b).1.angle = g.angle) ∨
    (g.gidx = 10#4 ∧ (g.gbuf[1] ≠ 0x51#8 → (g.feed b).1.acc = g.acc) ∧
      (g.gbuf[1] ≠ 0x52#8 → (g.feed b).1.arate = g.arate) ∧ (g.gbuf[1] ≠ 0x53#8 → (g.feed b).1.angle = g.angle)) := by
  by_cases hb : g.gidx = 0#4 → b = 0x55#8
  · obtain ⟨-, hfeed⟩ | ⟨h10, hfeed⟩ := Gfa.feed_cases_of_inv hg hb
    · exact .inl (by rw [hfeed]; exact ⟨rfl, rfl, rfl⟩)
    · rw [hfeed, (g.store b).dispatch_eq (Gfa.byteAt_store_last h10 b 1 (by decide))]
      exact .inr ⟨h10, fun h => if_neg h, fun h => if_neg h, fun h => if_neg h⟩
  · obtain ⟨h0, hsync⟩ := Classical.not_imp.mp hb
    exact .inl (by rw [Gfa.feed_of_bad_sync h0 hsync]; exact ⟨rfl, rfl, rfl⟩)

/-! ## A frame under way -/

/-- The bytes `bs` of a frame have been received: GIDX counts them and they stand at the front of GBUF. Kept by
`Gfa.Received.store`, one GFEED at a time (`exec_gfeed_received`). -/
def Gfa.Received (g : Gfa) (bs : List Byte) : Prop :=
  g.Inv ∧ g.gidx.toNat = bs.length ∧ g.gbuf.toList.take bs.length = bs

theorem Gfa.received_nil {g : Gfa} (h : g.gidx = 0#4) : g.Received [] :=
  ⟨Gfa.inv_of_gidx_zero h, by rw [h]; rfl, rfl⟩

/-- A list written just behind its first `n` elements. -/
theorem take_succ_set {α : Type} {l : List α} {n : Nat} (h : n < l.length) (a : α) :
    (l.set n a).take (n + 1) = l.take n ++ [a] := by
  rw [List.take_add_one, List.take_set_of_le (Nat.le_refl n), List.getElem?_set_self h]
  rfl

/-- Storing a byte puts it behind those received. -/
theorem Gfa.Received.store_gbuf {g : Gfa} {bs : List Byte} (h : g.Received bs) (b : Byte) :
    (g.store b).gbuf.toList.take (bs.length + 1) = bs ++ [b] := by
  obtain ⟨⟨hlt, -⟩, hcount, hfront⟩ := h
  have hsize : bs.length < g.gbuf.toList.length := by simpa [← hcount] using hlt
  have hlist : (g.store b).gbuf.toList = g.gbuf.toList.set bs.length b := by
    rw [Gfa.store_gbuf, hcount, Vector.toList_setIfInBounds]
  rw [hlist, take_succ_set hsize, hfront]

/-- One more byte of a frame (R92). -/
theorem exec_gfeed_received {s : State} {bs : List Byte} {b : Byte} (h : s.gfa.Received bs) (hlen : bs.length < 10)
    (hb : bs = [] → b = 0x55#8) :
    exec (.gfeed b) s =
        .next { s with gfa := s.gfa.store b, response := some (0x01#8 ++ BitVec.ofNat 8 (bs.length + 1)) } ∧
      (s.gfa.store b).Received (bs ++ [b]) := by
  have hfront := h.store_gbuf b
  obtain ⟨hinv, hcount, -⟩ := h
  have hsync : s.gfa.gidx = 0#4 → b = 0x55#8 := fun h0 => hb (by simpa [h0] using hcount.symm)
  have hfeed := Gfa.feed_of_incomplete hinv (by omega) hsync
  have hnext := Gfa.feed_inv s.gfa b
  rw [hfeed] at hnext
  refine ⟨?_, hnext, ?_, ?_⟩
  · rw [exec_gfeed_of_inv hinv, hfeed, hcount, State.finishGfa, State.answer, respond_incomplete]
  · rw [Gfa.store_gidx, Gfa.toNat_gidx_add_one hinv, hcount, List.length_append, List.length_singleton]
  · rw [List.length_append, List.length_singleton, hfront]

/-- The bytes of a frame up to the tenth, from any place in it. -/
theorem execAll_gfeed_received (cs : List Byte) : ∀ {bs : List Byte} {s : State}, s.gfa.Received bs →
    (bs = [] → cs.head? = some 0x55#8) → bs.length + cs.length ≤ 10 →
    ∃ g r, execAll (cs.map .gfeed) s =
        .next ({ s with gfa := g, response := r },
          (List.range' bs.length cs.length).map fun n => 0x01#8 ++ BitVec.ofNat 8 (n + 1)) ∧
      g.Received (bs ++ cs) ∧ g.acc = s.gfa.acc ∧ g.arate = s.gfa.arate ∧ g.angle = s.gfa.angle := by
  induction cs with
  | nil => exact fun {bs s} h _ _ => ⟨s.gfa, s.response, rfl, by simpa using h, rfl, rfl, rfl⟩
  | cons c cs ih =>
    intro bs s h hsync hlen
    rw [List.length_cons] at hlen
    obtain ⟨hexec, hreceived⟩ := exec_gfeed_received (b := c) h (by omega) fun hnil => by simpa using hsync hnil
    obtain ⟨g, r, hrest, hg, hstructures⟩ := ih (s := { s with gfa := s.gfa.store c, response := _ })
      hreceived (by simp)
      (by rw [List.length_append, List.length_singleton]; omega)
    refine ⟨g, r, ?_, by simpa using hg, hstructures⟩
    rw [List.map_cons, execAll_cons_next hexec hrest]
    simp [List.range'_succ]

/-- The payload of a whole frame in GBUF. -/
theorem Gfa.payload_of_frame {g : Gfa} {sync st x : Byte} {d : Vector Byte 8}
    (h : g.gbuf.toList = sync :: st :: (d.toList ++ [x])) : g.payload = d := by
  apply Vector.ext
  intro k (hk : k < 8)
  rw [Gfa.payload_getElem g k hk, byteAt, h, Nat.add_comm]
  simp [List.getElem?_append_left, hk]

/-- The eleventh byte of a frame whose first ten are received: it is stored, and the frame is dispatched. -/
theorem exec_gfeed_frame {s : State} {sync st x : Byte} {d : Vector Byte 8}
    (h : s.gfa.Received (sync :: st :: d.toList)) :
    ∃ g, exec (.gfeed x) s =
        .next { s with
          gfa := { gidx := 0#4, gbuf := g,
                   acc := if st = 0x51#8 then d else s.gfa.acc,
                   arate := if st = 0x52#8 then d else s.gfa.arate,
                   angle := if st = 0x53#8 then d else s.gfa.angle },
          response := some (if st ∈ [0x51#8, 0x52#8, 0x53#8] then 0x02#8 ++ st else 0x0302#16) } ∧
      g.toList = sync :: st :: (d.toList ++ [x]) := by
  have hframe : (s.gfa.store x).gbuf.toList = sync :: st :: (d.toList ++ [x]) := by
    have hfront := h.store_gbuf x
    rwa [List.take_of_length_le (by simp)] at hfront
  obtain ⟨hinv, hcount, -⟩ := h
  have h10 : s.gfa.gidx = 10#4 := BitVec.eq_of_toNat_eq (by simpa using hcount)
  have hst : byteAt (s.gfa.store x).gbuf 1 = st := by rw [byteAt, hframe]; rfl
  refine ⟨_, ?_, hframe⟩
  rw [exec_gfeed_of_complete hinv h10, Gfa.dispatch_eq _ hst, Gfa.payload_of_frame hframe, State.finishGfa,
    State.answer]
  by_cases hknown : st ∈ [0x51#8, 0x52#8, 0x53#8]
  · simp only [if_pos hknown, respond_complete]
    rfl
  · simp only [if_neg hknown, respond_rejected_02]
    rfl

end Sys2Proof.Machine

namespace Sys2Proof.Proofs

open Sys2Proof.Machine

/-- Settles O18: CKS as a number, and the one case of no bytes. -/
theorem checksumIsInvertedLowByte : Obligations.ChecksumIsInvertedLowByte :=
  ⟨toNat_cks, by decide⟩

/-- Settles O19: in each case the sum modulo 256 is the same. -/
theorem checksumBlindSpots : Obligations.ChecksumBlindSpots := by
  refine ⟨fun bs cs h => ?reordered, fun bs => ?zero, fun bs cs (h : byteSum cs % 256 = 0) => ?multiple⟩
  case reordered => exact cks_eq_of_sum (by rw [byteSum_perm h])
  case zero => exact cks_eq_of_sum (by simp)
  case multiple => exact cks_eq_of_sum (by rw [byteSum_append]; omega)

/-- Settles O20: CKCLR and the CKACCs leave the sum of the bytes in the accumulator, whose CKRES is their checksum. -/
theorem generatorComputesChecksum : Obligations.GeneratorComputesChecksum := by
  intro s bs
  refine ⟨_, ?_, rfl⟩
  rw [← List.cons_append]
  exact execAll_append_next (execAll_read_and_validate rfl) (execAll_ckgen s bs)

/-- Settles O21: at GIDX = 0 by the byte just stored, mid-frame because a byte is one more or the eleventh. -/
theorem gfeedRejectsBadSync : Obligations.GfeedRejectsBadSync := by
  refine ⟨fun s b h0 hb => ?first, fun s b hg h0 => ?midFrame⟩
  case first =>
    rw [exec_gfeed_of_inv (Gfa.inv_of_gidx_zero h0), Gfa.feed_of_bad_sync h0 hb, State.finishGfa, State.answer,
      respond_rejected_01]
  case midFrame =>
    refine ⟨_, exec_gfeed_of_inv hg b, fun hresponse => ?_⟩
    rw [State.finishGfa_response, Option.some.injEq, ← respond_rejected_01] at hresponse
    obtain ⟨hstatus, hdata⟩ := respond_inj hresponse
    obtain ⟨-, hfeed⟩ | ⟨-, hfeed⟩ := Gfa.feed_cases_of_inv (b := b) hg (absurd · h0) <;> rw [hfeed] at hstatus hdata
    · cases hstatus
    · exact Gfa.dispatch_answer_ne _ (by rw [← hstatus, ← hdata])

/-- Settles O28: only a GFEED writes the structures, and only as the eleventh byte, by the sub-type in GBUF[1]. -/
theorem decodedStructureWriters : Obligations.DecodedStructureWriters := by
  intro i s t hg h
  by_cases hi : ∃ b, i = .gfeed b
  · obtain ⟨b, rfl⟩ := hi
    obtain ⟨-, rfl⟩ := exec_gfeed_next.mp h
    obtain ⟨hacc, harate, hangle⟩ | ⟨h10, hacc, harate, hangle⟩ := Gfa.feed_structures hg b
    · exact ⟨absurd hacc, absurd harate, absurd hangle⟩
    · exact ⟨fun hne => ⟨⟨b, rfl⟩, h10, of_not_not fun hst => hne (hacc hst)⟩,
        fun hne => ⟨⟨b, rfl⟩, h10, of_not_not fun hst => hne (harate hst)⟩,
        fun hne => ⟨⟨b, rfl⟩, h10, of_not_not fun hst => hne (hangle hst)⟩⟩
  · rw [exec_keeps_gfa (not_exists.mp hi) h]
    exact ⟨absurd rfl, absurd rfl, absurd rfl⟩

/-- Settles O25: the first byte, the nine up to the tenth, and the dispatch. -/
theorem gyroFrameIsDecoded : Obligations.GyroFrameIsDecoded := by
  intro s st x d h0
  obtain ⟨g, r, hten, hreceived, hacc, harate, hangle⟩ :=
    execAll_gfeed_received (0x55#8 :: st :: d.toList) (Gfa.received_nil h0) (fun _ => rfl) (by simp)
  obtain ⟨v, hlast, hv⟩ := exec_gfeed_frame (s := { s with gfa := g, response := r }) (x := x) hreceived
  have hframe := execAll_append_next (execAll_cons_next hlast (execAll_nil _)) hten
  rw [← List.map_singleton, ← List.map_append, List.length_cons, List.length_cons, Vector.length_toList] at hframe
  refine ⟨_, hframe, rfl, rfl, rfl, hv, ?_, ?_, ?_⟩
  · simp [hacc]
  · simp [harate]
  · simp [hangle]

end Sys2Proof.Proofs

/-!
SUPPORT. SFEED over a frame: what the parser accepts byte by byte (R99 to R104), from the header to the last parameter,
and the completion (R105); a property that every op of a list keeps; and the writers of the frame registers.
-/

namespace Sys2Proof.Machine

/-! ## Lists of ops -/

/-- What each op of a list keeps, the list keeps. -/
theorem execAll_keeps {P : State → Prop} {is : List Instr}
    (hkeep : ∀ i ∈ is, ∀ s t, P s → exec i s = .next t → P t) :
    ∀ {s t : State} {rs : List Word}, P s → execAll is s = .next (t, rs) → P t := by
  induction is with
  | nil =>
    intro s t rs hs h
    cases h
    exact hs
  | cons i is ih =>
    intro s t rs hs h
    obtain ⟨u, qs, hu, hrest, -⟩ := execAll_cons_inv h
    exact ih (fun j hj => hkeep j (List.mem_cons_of_mem i hj)) (hkeep i List.mem_cons_self s u hs hu) hrest

/-! ## Bytes that are accepted -/

/-- The parser `p` answers INCOMPLETE to each of the bytes and is `q` after them. Tied to the ops by
`execAll_sfeed_of_accepts`. -/
inductive Sfp.Accepts : Sfp → List Byte → Sfp → Prop where
  | nil (p : Sfp) : Accepts p [] p
  | cons {p q r : Sfp} {b : Byte} {bs : List Byte} (hb : p.feed b = (q, incomplete)) (hbs : Accepts q bs r) :
      Accepts p (b :: bs) r

theorem Sfp.Accepts.append {p q r : Sfp} {bs cs : List Byte} (hb : p.Accepts bs q) (hc : q.Accepts cs r) :
    p.Accepts (bs ++ cs) r := by
  induction hb with
  | nil => exact hc
  | cons hb _ ih => exact .cons hb (ih hc)

/-- The SFEEDs of accepted bytes answer INCOMPLETE and change nothing but the servo parser. -/
theorem execAll_sfeed_of_accepts {p q : Sfp} {bs : List Byte} (h : p.Accepts bs q) :
    ∀ {s : State}, s.sfp = p → p.Inv →
      q.Inv ∧ ∃ r, execAll (bs.map .sfeed) s =
        .next ({ s with sfp := q, response := r }, List.replicate bs.length 0x0100#16) := by
  induction h with
  | nil p =>
    rintro s rfl hi
    exact ⟨hi, s.response, rfl⟩
  | @cons p q r b bs hb _ ih =>
    rintro s rfl hi
    have hexec : exec (.sfeed b) s = .next { s with sfp := q, response := some 0x0100#16 } := by
      rw [exec_sfeed_of_inv hi, hb, State.finishSfp_incomplete]
    have hq := hi.feed b
    rw [hb] at hq
    obtain ⟨hr, v, hrest⟩ := ih (s := { s with sfp := q, response := some 0x0100#16 }) rfl hq
    exact ⟨hr, v, execAll_cons_next hexec hrest⟩

/-- Bytes other than the sync byte leave the parser in AWAIT_HEADER1 as it is (R99). -/
theorem Sfp.accepts_noise {p : Sfp} (hs : p.sstate = .awaitHeader1) {noise : List Byte} (hn : 0x55#8 ∉ noise) :
    p.Accepts noise p := by
  induction noise with
  | nil => exact .nil p
  | cons b bs ih =>
    obtain ⟨hb, hbs⟩ := not_or.mp (List.mem_cons.not.mp hn)
    refine .cons ?_ (ih hbs)
    rw [Sfp.feed_of_awaitHeader1 hs, if_neg (Ne.symm hb)]

/-- The parser after the header and an accepted ID (R99 to R101); see `Sfp.accepts_header`. -/
def Sfp.afterHeader (p : Sfp) (id : Byte) : Sfp :=
  { p with sstate := .readLength, shcnt := 2#2, sbcnt := 3#4, spcnt := 0#3, rxId := id }

theorem Sfp.accepts_header {p : Sfp} (hs : p.sstate = .awaitHeader1) {id : Byte} (hid : id.toNat ≤ 254) :
    p.Accepts [0x55#8, 0x55#8, id] (p.afterHeader id) := by
  have hfirst : p.feed 0x55#8 = ({ p with sstate := .awaitHeader2, shcnt := 1#2 }, incomplete) := by
    rw [Sfp.feed_of_awaitHeader1 hs, if_pos rfl]
  refine .cons hfirst (.cons (q := { p with sstate := .readId, shcnt := 2#2, sbcnt := 2#4, spcnt := 0#3 }) ?_
    (.cons ?_ (.nil _)))
  · rw [Sfp.feed_of_awaitHeader2 rfl, if_pos rfl]
  · rw [Sfp.feed_of_readId rfl, if_pos hid]
    rfl

/-- The parser after an accepted length and command (R102, R103); see `Sfp.accepts_length_command`. -/
def Sfp.afterCommand (p : Sfp) (len cmd : Byte) : Sfp :=
  { p with sstate := if len.toNat = 3 then .readChecksum else .readParams, sbcnt := 5#4, spcnt := 0#3,
           rxLen := len, rxCmd := cmd }

theorem Sfp.accepts_length_command {p : Sfp} (hs : p.sstate = .readLength) {len cmd : Byte}
    (hlen : 3 ≤ len.toNat ∧ len.toNat ≤ 7) (hcmd : 1 ≤ cmd.toNat ∧ cmd.toNat ≤ 0x36) :
    p.Accepts [len, cmd] (p.afterCommand len cmd) := by
  refine .cons (q := { p with rxLen := len, sbcnt := 4#4, sstate := .readCommand }) ?_ (.cons ?_ (.nil _))
  · rw [Sfp.feed_of_readLength hs, if_pos hlen]
  · rw [Sfp.feed_of_readCommand rfl, if_pos hcmd]
    rfl

/-- A byte written at place `k` and others behind it are a run of bytes written from `k` on. -/
theorem written_first_then_rest {l : List Byte} {k : Nat} (h : k < l.length) (b : Byte) (bs : List Byte) :
    (l.set k b).take (k + 1) ++ bs ++ (l.set k b).drop (k + 1 + bs.length) =
      l.take k ++ b :: bs ++ l.drop (k + (b :: bs).length) := by
  rw [take_succ_set h, List.drop_set_of_lt (by omega), List.length_cons, Nat.add_right_comm, Nat.add_assoc]
  simp

/-- The parameters that are still missing (R104): they go to the registers from SPCNT on, and the last one moves the
parser on. -/
theorem Sfp.accepts_params (ps : List Byte) : ∀ {p : Sfp},
    p.sstate = (if p.spcnt.toNat = p.rxLen.toNat - 3 then .readChecksum else .readParams) →
    p.spcnt.toNat + ps.length = p.rxLen.toNat - 3 → p.rxLen.toNat ≤ 7 →
    ∃ sb sp v, p.Accepts ps { p with sstate := .readChecksum, sbcnt := sb, spcnt := sp, rxP := v } ∧
      v.toList = p.rxP.toList.take p.spcnt.toNat ++ ps ++ p.rxP.toList.drop (p.spcnt.toNat + ps.length) := by
  induction ps with
  | nil =>
    intro p hs hcount _
    rw [if_pos (by simpa using hcount)] at hs
    refine ⟨p.sbcnt, p.spcnt, p.rxP, ?_, by simp⟩
    rw [← hs]
    exact .nil p
  | cons b ps ih =>
    intro p hs hcount hmax
    rw [List.length_cons] at hcount
    have hlt : p.spcnt.toNat < 4 := by omega
    rw [if_neg (by omega)] at hs
    have hnext : (BitVec.ofNat 3 (p.spcnt.toNat + 1)).toNat = p.spcnt.toNat + 1 := Nat.mod_eq_of_lt (by omega)
    have hfeed := (Sfp.feed_of_readParams hs b).trans (Sfp.feedParam_eq hlt b)
    obtain ⟨sb, sp, v, hrest, hv⟩ := ih (p := (p.feed b).1) (by rw [hfeed]; simp only [hnext])
      (by rw [hfeed]; simp only [hnext]; omega) (by rw [hfeed]; exact hmax)
    rw [hfeed] at hrest hv
    refine ⟨sb, sp, v, .cons hfeed hrest, ?_⟩
    have hsize : p.spcnt.toNat < p.rxP.toList.length := by simpa using hlt
    rw [hv]
    simp only [hnext, Vector.toList_set]
    exact written_first_then_rest hsize b ps

/-! ## Whole frames -/

/-- A well-formed frame's fields, as numbers (R72 to R75). -/
theorem ServoFrame.wellFormed_iff (f : ServoFrame) :
    f.wellFormed = true ↔ f.id.toNat ≤ 254 ∧ f.ps.length ≤ 4 ∧ 1 ≤ f.cmd.toNat ∧ f.cmd.toNat ≤ 0x36 := by
  simp [ServoFrame.wellFormed, BitVec.le_def, and_assoc]

theorem ServoFrame.toNat_len {f : ServoFrame} (h : f.ps.length ≤ 4) : (ServoFrame.len f).toNat = f.ps.length + 3 :=
  Nat.mod_eq_of_lt (by omega)

/-- All of a well-formed frame but its checksum byte is accepted, and leaves the covered bytes in the registers. -/
theorem Sfp.accepts_frame {p : Sfp} (hs : p.sstate = .awaitHeader1) {f : ServoFrame} (hf : f.wellFormed = true) :
    ∃ q : Sfp, p.Accepts (0x55#8 :: 0x55#8 :: ServoFrame.covered f) q ∧ q.sstate = .readChecksum ∧
      q.rxId = f.id ∧ q.rxLen = ServoFrame.len f ∧ q.rxCmd = f.cmd ∧
      q.rxP.toList = f.ps ++ p.rxP.toList.drop f.ps.length := by
  obtain ⟨hid, hps, hcmd⟩ := (ServoFrame.wellFormed_iff f).mp hf
  have hlen := ServoFrame.toNat_len hps
  have hhead := (Sfp.accepts_header hs hid).append
    (Sfp.accepts_length_command rfl (len := ServoFrame.len f) (by omega) hcmd)
  have hstate : (if (ServoFrame.len f).toNat = 3 then SState.readChecksum else .readParams) =
      if (0#3).toNat = (ServoFrame.len f).toNat - 3 then .readChecksum else .readParams :=
    if_congr (by simp; omega) rfl rfl
  obtain ⟨sb, sp, v, hparams, hv⟩ := Sfp.accepts_params f.ps
    (p := (p.afterHeader f.id).afterCommand (ServoFrame.len f) f.cmd) hstate (by simp [Sfp.afterCommand, hlen])
    (by simp only [Sfp.afterCommand, hlen]; omega)
  refine ⟨_, hhead.append hparams, rfl, rfl, rfl, rfl, ?_⟩
  simpa [Sfp.afterCommand, Sfp.afterHeader] using hv

/-- The covered bytes, read back from the registers (R81). -/
theorem Sfp.fields_of_frame {p : Sfp} {f : ServoFrame} {stale : List Byte} (hf : f.wellFormed = true)
    (hid : p.rxId = f.id) (hlen : p.rxLen = ServoFrame.len f) (hcmd : p.rxCmd = f.cmd)
    (hps : p.rxP.toList = f.ps ++ stale) : p.fields = ServoFrame.covered f := by
  obtain ⟨-, hcount, -⟩ := (ServoFrame.wellFormed_iff f).mp hf
  rw [Sfp.fields, hid, hlen, hcmd, hps, ServoFrame.toNat_len hcount, Nat.add_sub_cancel, List.take_left]
  rfl

/-- The parser after the right checksum byte (R105); see `exec_sfeed_checksum`. -/
def Sfp.completed (p : Sfp) : Sfp :=
  { p with rxCks := cks p.fields, rxCkcalc := cks p.fields, ckok := true, ready := true, sstate := .awaitHeader1,
           shcnt := 0#2, sbcnt := 0#4, spcnt := 0#3 }

theorem exec_sfeed_checksum {s : State} (hi : s.sfp.Inv) (hs : s.sfp.sstate = .readChecksum) :
    exec (.sfeed (cks s.sfp.fields)) s = .next { s with sfp := s.sfp.completed, response := some 0x0200#16 } := by
  have hfeed : s.sfp.feedChecksum (cks s.sfp.fields) = (s.sfp.completed, ⟨.complete, 0x00#8⟩) := by
    simp [Sfp.feedChecksum, Sfp.recordVerdict, Sfp.clearTransient, Sfp.fields, Sfp.completed]
  rw [exec_sfeed_of_inv hi, Sfp.feed_of_readChecksum hs, hfeed, State.finishSfp, State.answer, respond_complete_00]

/-- A STAKE right after validates the same bytes (R112). -/
theorem exec_stake_completed {s : State} {p : Sfp} (hs : s.sfp = p.completed) (hl : p.lenLegal = true) :
    exec .stake s = .next { s with sfp := s.sfp.clearReady, response := some 0x0200#16 } := by
  have hlegal : s.sfp.lenLegal = true := hs ▸ hl
  have hvalid : cks s.sfp.fields = s.sfp.rxCks := by
    rw [hs]
    rfl
  rw [exec_stake_of_ready (by rw [hs]; rfl) hlegal, if_pos hvalid]

/-! ## A frame ready to be taken -/

/-- The next STAKE will answer by CKOK: a frame of legal length is ready, and CKOK is the validator's verdict over the
frame registers as they are. -/
def Sfp.Takeable (p : Sfp) : Prop :=
  p.ready = true ∧ p.lenLegal = true ∧ (p.ckok = true ↔ cks p.fields = p.rxCks)

/-- Completion leaves the frame ready to be taken (R105). -/
theorem exec_sfeed_takeable {s t : State} {b : Byte} (hi : s.sfp.Inv) (hs : s.sfp.sstate = .readChecksum)
    (h : exec (.sfeed b) s = .next t) : t.sfp.Takeable := by
  obtain ⟨hready, -⟩ := exec_sfeed_readChecksum_flags hs h
  have hsfp : t.sfp = (s.sfp.feedChecksum b).1 := by
    rw [exec_sfp h, Sfp.afterOp, Sfp.feed_of_readChecksum hs]
  have hckok : (s.sfp.feedChecksum b).1.ckok = (b == cks s.sfp.fields) := rfl
  obtain ⟨-, -, -, -, -, hlegal⟩ : t.sfp.Inv := exec_sfp h ▸ hi.afterOp (.sfeed b)
  refine ⟨hready, hlegal hready, ?_⟩
  rw [hsfp, hckok, beq_iff_eq]
  exact eq_comm

/-- An op that neither feeds nor claims keeps the frame ready to be taken: of the parser it writes the transient state
at most. -/
theorem exec_keeps_takeable {i : Instr} {s t : State} (hfeed : ∀ c, i ≠ .sfeed c) (hspoll : i ≠ .spoll)
    (hstake : i ≠ .stake) (hs : s.sfp.Takeable) (h : exec i s = .next t) : t.sfp.Takeable := by
  rw [exec_sfp h]
  cases i with
  | sfeed b => exact absurd rfl (hfeed b)
  | spoll => exact absurd rfl hspoll
  | stake => exact absurd rfl hstake
  | sclr | gfeed | ckclr | ckacc | ckval | rread => exact hs

/-- An op that feeds no byte does not set READY (R26). -/
theorem exec_keeps_not_ready {i : Instr} {s t : State} (hi : ∀ c, i ≠ .sfeed c) (hs : s.sfp.ready = false)
    (h : exec i s = .next t) : t.sfp.ready = false := by
  obtain ⟨⟨b, hb⟩, -⟩ | ⟨-, hr, -⟩ | ⟨hr, -⟩ := exec_flags_cases h
  · exact absurd hb (hi b)
  · exact hr
  · rw [hr, hs]

/-- STAKE without a frame, as often as it is asked (R112). -/
theorem execAll_stake_of_not_ready (n : Nat) : ∀ {s : State}, s.sfp.ready = false →
    ∃ r, execAll (List.replicate n .stake) s =
      .next ({ s with response := r }, List.replicate n 0x0100#16) := by
  induction n with
  | zero => exact fun {s} _ => ⟨s.response, rfl⟩
  | succ n ih =>
    intro s hs
    obtain ⟨r, hrest⟩ := ih (s := { s with response := some 0x0100#16 }) hs
    exact ⟨r, execAll_cons_next (exec_stake_of_not_ready hs) hrest⟩

/-! ## The writers of the frame registers -/

/-- Two parsers agree on the frame registers. -/
def Sfp.SameFrame (p q : Sfp) : Prop :=
  p.rxId = q.rxId ∧ p.rxLen = q.rxLen ∧ p.rxCmd = q.rxCmd ∧ p.rxP = q.rxP ∧ p.rxCks = q.rxCks ∧
    p.rxCkcalc = q.rxCkcalc

theorem Sfp.SameFrame.refl (p : Sfp) : p.SameFrame p := ⟨rfl, rfl, rfl, rfl, rfl, rfl⟩

/-- `q` is `p` up to the transient state and the flags, with `b` in the field whose place in the frame `p` is at, where
it is accepted (R22 to R25). -/
def Sfp.Writes (p : Sfp) (b : Byte) (q : Sfp) : Prop :=
  (p.sstate = .readId ∧ b.toNat ≤ 254 ∧ q.SameFrame { p with rxId := b }) ∨
  (p.sstate = .readLength ∧ (3 ≤ b.toNat ∧ b.toNat ≤ 7) ∧ q.SameFrame { p with rxLen := b }) ∨
  (p.sstate = .readCommand ∧ (1 ≤ b.toNat ∧ b.toNat ≤ 0x36) ∧ q.SameFrame { p with rxCmd := b }) ∨
  (p.sstate = .readParams ∧ q.SameFrame { p with rxP := p.rxP.setIfInBounds p.spcnt.toNat b }) ∨
  (p.sstate = .readChecksum ∧ q.SameFrame { p with rxCks := b, rxCkcalc := cks p.fields })

theorem Sfp.feed_frame_cases (p : Sfp) (b : Byte) : (p.feed b).1.SameFrame p ∨ p.Writes b (p.feed b).1 := by
  cases hs : p.sstate with
  | awaitHeader1 =>
    rw [Sfp.feed_of_awaitHeader1 hs]
    split <;> exact .inl (.refl p)
  | awaitHeader2 =>
    rw [Sfp.feed_of_awaitHeader2 hs]
    split <;> exact .inl (.refl p)
  | readId =>
    rw [Sfp.feed_of_readId hs]
    split
    · exact .inr (.inl ⟨hs, ‹_›, .refl _⟩)
    · exact .inl (.refl p)
  | readLength =>
    rw [Sfp.feed_of_readLength hs]
    split
    · exact .inr (.inr (.inl ⟨hs, ‹_›, .refl _⟩))
    · exact .inl (.refl p)
  | readCommand =>
    rw [Sfp.feed_of_readCommand hs]
    split
    · exact .inr (.inr (.inr (.inl ⟨hs, ‹_›, .refl _⟩)))
    · exact .inl (.refl p)
  | readParams =>
    rw [Sfp.feed_of_readParams hs]
    exact .inr (.inr (.inr (.inr (.inl ⟨hs, .refl _⟩))))
  | readChecksum =>
    rw [Sfp.feed_of_readChecksum hs]
    exact .inr (.inr (.inr (.inr (.inr ⟨hs, .refl _⟩))))
  | done =>
    simp only [Sfp.feed, hs]
    exact .inl (.refl p)

/-- An op other than SFEED and SCLR keeps the transient state (R18 to R21). -/
theorem exec_keeps_transient {i : Instr} {s t : State} (hfeed : ∀ b, i ≠ .sfeed b) (hsclr : i ≠ .sclr)
    (h : exec i s = .next t) :
    t.sfp.sstate = s.sfp.sstate ∧ t.sfp.shcnt = s.sfp.shcnt ∧ t.sfp.sbcnt = s.sfp.sbcnt ∧
      t.sfp.spcnt = s.sfp.spcnt := by
  rw [exec_sfp h]
  cases i with
  | sfeed b => exact absurd rfl (hfeed b)
  | sclr => exact absurd rfl hsclr
  | spoll | stake | gfeed | ckclr | ckacc | ckval | rread => exact ⟨rfl, rfl, rfl, rfl⟩

/-- What an op can do to the frame registers: nothing, or what the byte of an SFEED does. -/
theorem exec_frame_cases {i : Instr} {s t : State} (h : exec i s = .next t) :
    t.sfp.SameFrame s.sfp ∨ ∃ b, i = .sfeed b ∧ s.sfp.Writes b t.sfp := by
  rw [exec_sfp h]
  cases i with
  | sfeed b =>
    obtain hsame | hwrite := s.sfp.feed_frame_cases b
    · exact .inl hsame
    · exact .inr ⟨b, rfl, hwrite⟩
  | spoll | stake | sclr | gfeed | ckclr | ckacc | ckval | rread => exact .inl (.refl _)

/-- An element that a write changed is the one written. -/
theorem getElem_of_written {n j : Nat} {v w : Vector Byte n} {b : Byte} (hw : w = v.setIfInBounds j b) {k : Fin n}
    (hk : w[k] ≠ v[k]) : j = k.val ∧ w[k] = b := by
  subst hw
  have helem : (v.setIfInBounds j b)[k] = if j = k.val then b else v[k] := Vector.getElem_setIfInBounds ..
  rw [helem] at hk ⊢
  split at hk
  · exact ⟨‹_›, if_pos ‹_›⟩
  · exact absurd rfl hk

end Sys2Proof.Machine

namespace Sys2Proof.Proofs

open Sys2Proof.Machine

/-- Settles O38: all but the last byte is accepted, the last is the checksum of the bytes it covers, and STAKE
validates the same bytes. -/
theorem wellFormedFrameIsParsed : Obligations.WellFormedFrameIsParsed := by
  intro s f hi hs hf
  obtain ⟨q, haccepts, hq, hid, hlen, hcmd, hps⟩ := Sfp.accepts_frame hs hf
  obtain ⟨hqinv, r, hexec⟩ := execAll_sfeed_of_accepts haccepts rfl hi
  have hfields := Sfp.fields_of_frame hf hid hlen hcmd hps
  have hlast := exec_sfeed_checksum (s := { s with sfp := q, response := r }) hqinv hq
  have hframe := execAll_append_next (execAll_cons_next hlast (execAll_nil _)) hexec
  rw [← List.map_singleton, ← List.map_append, hfields] at hframe
  obtain ⟨-, hcount, -⟩ := (ServoFrame.wellFormed_iff f).mp hf
  have hlenNat : q.rxLen.toNat = f.ps.length + 3 := by rw [hlen, ServoFrame.toNat_len hcount]
  have hlegal : q.lenLegal = true := q.lenLegal_iff.mpr (by omega)
  refine ⟨{ s with sfp := q.completed, response := some 0x0200#16 }, hframe, rfl, rfl, rfl, rfl, rfl, hid, hlenNat,
    hcmd, hps, ?_, rfl, exec_stake_completed rfl hlegal⟩
  rw [show q.completed.rxLen = ServoFrame.len f from hlen]
  exact congrArg cks hfields

/-- Settles O39: the noise leaves the parser as it is. -/
theorem frameAfterNoiseIsParsed : Obligations.FrameAfterNoiseIsParsed := by
  intro s noise f hi hs hnoise hf
  obtain ⟨-, r, hskip⟩ := execAll_sfeed_of_accepts (Sfp.accepts_noise hs hnoise) rfl hi
  obtain ⟨t, hframe, -, -, -, hready, hok, hid, hlen, hcmd, hps, hcks, -⟩ :=
    wellFormedFrameIsParsed { s with response := r } f hi hs hf
  refine ⟨t, ?_, hready, hok, hid, hlen, hcmd, by rw [hps, List.take_left], hcks⟩
  rw [List.map_append, execAll_append_next hframe hskip, ← List.append_assoc, List.replicate_append_replicate,
    Nat.add_assoc]

/-- Settles O40: SCLR puts the parser in AWAIT_HEADER1 and keeps its invariant. -/
theorem sclrFreesWedgedParser : Obligations.SclrFreesWedgedParser := by
  intro s f hi hf
  obtain ⟨t, hframe, -, -, -, hready, hok, hid, hlen, hcmd, hps, hcks, -⟩ :=
    wellFormedFrameIsParsed { s with sfp := s.sfp.clearTransient, response := some 0x0000#16 } f hi.clearTransient
      rfl hf
  exact ⟨t, execAll_cons_next (exec_sclr s) hframe, hready, hok, hid, hlen, hcmd, by rw [hps, List.take_left], hcks⟩

/-- Settles O41: the header and the ID replace RX_ID alone of the covered fields, and READY is still 1. -/
theorem stakeValidatesTheMix : Obligations.StakeValidatesTheMix := by
  intro s id hi hs hready hid
  obtain ⟨hinv, r, hheader⟩ := execAll_sfeed_of_accepts (Sfp.accepts_header hs hid) rfl hi
  obtain ⟨-, -, -, -, -, hlegal⟩ := hinv
  have hstake := exec_stake_of_ready (s := { s with sfp := s.sfp.afterHeader id, response := r }) hready
    (hlegal hready)
  have hrun := execAll_append_next (execAll_cons_next hstake (execAll_nil _)) hheader
  exact ⟨_, hrun, rfl, rfl, rfl, rfl⟩

/-- Settles O47: the frame stays ready to be taken until an op feeds or claims. -/
theorem stakeAgreesWithCkok : Obligations.StakeAgreesWithCkok := by
  intro s b between t rs hi hs hbetween h
  obtain ⟨u, qs, hfeed, hrest, -⟩ := execAll_cons_inv h
  obtain ⟨hready, hlegal, hok⟩ : t.sfp.Takeable :=
    execAll_keeps (P := fun s => s.sfp.Takeable)
      (fun i hmem s t hs ht =>
        have ⟨hsfeed, hspoll, hstake⟩ := hbetween i hmem
        exec_keeps_takeable hsfeed hspoll hstake hs ht)
      (exec_sfeed_takeable hi hs hfeed) hrest
  refine ⟨_, exec_stake_of_ready hready hlegal, ?_⟩
  simp only [hok]

/-- Settles O48: a claim leaves READY 0, and only an SFEED sets it. -/
theorem oneClaimPerCompletion : Obligations.OneClaimPerCompletion := by
  intro s first between t rs hfirst hbetween h
  obtain ⟨u, qs, hclaim, hrest, -⟩ := execAll_cons_inv h
  have hready : t.sfp.ready = false :=
    execAll_keeps (P := fun s => s.sfp.ready = false) (fun i hi s t hs ht => exec_keeps_not_ready (hbetween i hi) hs ht)
      (exec_claim_flags hfirst hclaim).1 hrest
  refine ⟨⟨_, exec_spoll t, ?_⟩, exec_stake_of_not_ready hready⟩
  simp [hready]

/-- Settles O49, by induction on the number of STAKEs. -/
theorem stakeWaitsWithoutFrame : Obligations.StakeWaitsWithoutFrame := by
  intro s n hs
  obtain ⟨r, hexec⟩ := execAll_stake_of_not_ready n hs
  exact ⟨_, hexec, rfl, rfl, rfl⟩

/-- Settles O50: the transient state by the op, and each frame register by the one place in a frame whose byte it
holds. -/
theorem servoRegisterWriters : Obligations.ServoRegisterWriters := by
  intro i s t h
  refine ⟨fun hfeed hsclr => exec_keeps_transient hfeed hsclr h, ?_⟩
  obtain ⟨hid, hlen, hcmd, hps, hcks, hcalc⟩ | ⟨b, rfl, hwrite⟩ := exec_frame_cases h
  · exact ⟨absurd hid, absurd hlen, absurd hcmd, fun k => absurd (by rw [hps]), absurd hcks, absurd hcalc⟩
  obtain ⟨hs, hb, hid, hlen, hcmd, hps, hcks, hcalc⟩ | ⟨hs, hb, hid, hlen, hcmd, hps, hcks, hcalc⟩ |
    ⟨hs, hb, hid, hlen, hcmd, hps, hcks, hcalc⟩ | ⟨hs, hid, hlen, hcmd, hps, hcks, hcalc⟩ |
    ⟨hs, hid, hlen, hcmd, hps, hcks, hcalc⟩ := hwrite
  case inl =>
    exact ⟨fun _ => hid ▸ ⟨hs, rfl, hb⟩, absurd hlen, absurd hcmd, fun k => absurd (by rw [hps]), absurd hcks,
      absurd hcalc⟩
  case inr.inl =>
    exact ⟨absurd hid, fun _ => hlen ▸ ⟨hs, rfl, hb⟩, absurd hcmd, fun k => absurd (by rw [hps]), absurd hcks,
      absurd hcalc⟩
  case inr.inr.inl =>
    exact ⟨absurd hid, absurd hlen, fun _ => hcmd ▸ ⟨hs, rfl, hb⟩, fun k => absurd (by rw [hps]), absurd hcks,
      absurd hcalc⟩
  case inr.inr.inr.inl =>
    refine ⟨absurd hid, absurd hlen, absurd hcmd, fun k hk => ?_, absurd hcks, absurd hcalc⟩
    obtain ⟨hcount, hbyte⟩ := getElem_of_written hps hk
    exact ⟨hs, hcount, by rw [hbyte]⟩
  case inr.inr.inr.inr =>
    exact ⟨absurd hid, absurd hlen, absurd hcmd, fun k => absurd (by rw [hps]), fun _ => hcks ▸ ⟨hs, rfl⟩,
      fun _ => ⟨hs, b, rfl⟩⟩

end Sys2Proof.Proofs

/-!
SUPPORT. The assembler on a printed line (R67): the comment is dropped, the mnemonic is read up to the first blank, and
the operand `0xNN` reads back as its byte.
-/

namespace Sys2Proof.Machine

/-! ## Operands -/

/-- A printed digit reads back, and is none of the characters that end a field. -/
theorem hexDigit?_hexChar {n : Nat} (h : n < 16) : hexDigit? (hexChar n) = some n := by
  interval_cases n <;> decide

theorem hexChar_plain {n : Nat} (h : n < 16) :
    isBlank (hexChar n) = false ∧ hexChar n ≠ ',' ∧ hexChar n ≠ ';' := by
  interval_cases n <;> decide

theorem operand?_hex {h l : Char} {a b : Nat} (ha : hexDigit? h = some a) (hb : hexDigit? l = some b) :
    operand? ['0', 'x', h, l] = some (BitVec.ofNat 8 (16 * a + b)) := by
  simp only [operand?, ha, hb]

/-- The operand field of one hexadecimal operand, with blanks after it or none. -/
theorem operandField?_hex {h l : Char} {a b : Nat} (ha : hexDigit? h = some a) (hb : hexDigit? l = some b)
    (hh : isBlank h = false ∧ h ≠ ',') (hl : isBlank l = false ∧ l ≠ ',') {blanks : List Char}
    (hblanks : blanks = [] ∨ blanks = [' ']) :
    operandField? ([' ', '0', 'x', h, l] ++ blanks) = some [BitVec.ofNat 8 (16 * a + b)] := by
  have htrim : trimBlanks ([' ', '0', 'x', h, l] ++ blanks) = ['0', 'x', h, l] := by
    have hspace : isBlank ' ' = true := rfl
    have hzero : isBlank '0' = false := rfl
    obtain rfl | rfl := hblanks <;> simp [trimBlanks, hspace, hzero, hl]
  have hsplit : splitCommas ([' ', '0', 'x', h, l] ++ blanks) = [[' ', '0', 'x', h, l] ++ blanks] := by
    obtain rfl | rfl := hblanks <;> simp [splitCommas, hh, hl]
  rw [operandField?, htrim, if_neg (by simp), hsplit, operands?, htrim, operand?_hex ha hb]
  rfl

theorem operandField?_printOperand (b : Byte) {blanks : List Char} (hblanks : blanks = [] ∨ blanks = [' ']) :
    operandField? (printOperand b ++ blanks) = some [b] := by
  have hhigh : b.toNat / 16 < 16 := by omega
  have hlow : b.toNat % 16 < 16 := by omega
  obtain ⟨hh, hh', -⟩ := hexChar_plain hhigh
  obtain ⟨hl, hl', -⟩ := hexChar_plain hlow
  rw [printOperand, operandField?_hex (hexDigit?_hexChar hhigh) (hexDigit?_hexChar hlow) ⟨hh, hh'⟩ ⟨hl, hl'⟩ hblanks,
    Nat.div_add_mod, BitVec.ofNat_toNat, BitVec.setWidth_eq]

/-! ## Lines -/

/-- The mnemonic of an op (R62); see `printInstr_eq`. -/
def mnemonic : Instr → List Char
  | .gfeed _ => ['G', 'F', 'E', 'E', 'D']
  | .sfeed _ => ['S', 'F', 'E', 'E', 'D']
  | .spoll => ['S', 'P', 'O', 'L', 'L']
  | .stake => ['S', 'T', 'A', 'K', 'E']
  | .sclr => ['S', 'C', 'L', 'R']
  | .ckclr => ['C', 'K', 'C', 'L', 'R']
  | .ckacc _ => ['C', 'K', 'A', 'C', 'C']
  | .ckval _ => ['C', 'K', 'V', 'A', 'L']
  | .rread _ => ['R', 'R', 'E', 'A', 'D']

/-- The operands of an op as the assembler lists them. -/
def operandList : Instr → List Byte
  | .gfeed b | .sfeed b | .ckacc b | .ckval b | .rread b => [b]
  | .spoll | .stake | .sclr | .ckclr => []

/-- A printed op is its mnemonic and its operands, each after a blank. -/
theorem printInstr_eq (i : Instr) : printInstr i = mnemonic i ++ (operandList i).flatMap printOperand := by
  cases i <;> simp [printInstr, mnemonic, operandList]

theorem asmOp_mnemonic (i : Instr) : asmOp (mnemonic i) (operandList i) = .ops [i] := by
  cases i <;> rfl

theorem mnemonic_plain (i : Instr) : mnemonic i ≠ [] ∧ ∀ c ∈ mnemonic i, isBlank c = false ∧ c ≠ ';' := by
  cases i <;> simp [mnemonic, isBlank]

theorem operandField?_operandList (i : Instr) {blanks : List Char} (hblanks : blanks = [] ∨ blanks = [' ']) :
    operandField? ((operandList i).flatMap printOperand ++ blanks) = some (operandList i) := by
  cases i with
  | gfeed b | sfeed b | ckacc b | ckval b | rread b =>
    simpa [operandList] using operandField?_printOperand b hblanks
  | spoll | stake | sclr | ckclr => obtain rfl | rfl := hblanks <;> rfl

theorem printOperand_plain (b : Byte) : ∀ c ∈ printOperand b, c ≠ ';' := by
  obtain ⟨-, -, hh⟩ := hexChar_plain (n := b.toNat / 16) (by omega)
  obtain ⟨-, -, hl⟩ := hexChar_plain (n := b.toNat % 16) (by omega)
  simp [printOperand, hh, hl]

/-- The text of an op's operands has no semicolon in it, and starts with a blank unless it is empty. -/
theorem operandText_plain (i : Instr) {blanks : List Char} (hblanks : blanks = [] ∨ blanks = [' ']) :
    (∀ c ∈ (operandList i).flatMap printOperand ++ blanks, c ≠ ';') ∧
      ∀ c ∈ ((operandList i).flatMap printOperand ++ blanks).head?, isBlank c = true := by
  cases i with
  | gfeed b | sfeed b | ckacc b | ckval b | rread b =>
    refine ⟨?_, by simp [operandList, printOperand, isBlank]⟩
    have hplain := printOperand_plain b
    obtain rfl | rfl := hblanks <;> simpa [operandList, or_imp, forall_and] using hplain
  | spoll | stake | sclr | ckclr => obtain rfl | rfl := hblanks <;> simp [operandList, isBlank]

/-- A run of a predicate that fails at the head is empty. -/
theorem takeWhile_dropWhile_of_head {α : Type} {p : α → Bool} {l : List α} (h : ∀ a ∈ l.head?, p a = false) :
    l.takeWhile p = [] ∧ l.dropWhile p = l := by
  cases l with
  | nil => exact ⟨rfl, rfl⟩
  | cons a l => simp [h a rfl]

/-- A line that is a mnemonic, the text of its operands and perhaps a comment assembles to the mnemonic's op. -/
theorem asmLine_of_parts {m text comment : List Char} {bs : List Byte} (hm : m ≠ [])
    (hplain : ∀ c ∈ m, isBlank c = false ∧ c ≠ ';') (htext : ∀ c ∈ text, c ≠ ';')
    (hblank : ∀ c ∈ text.head?, isBlank c = true) (hcomment : ∀ c ∈ comment.head?, c = ';')
    (hfield : operandField? text = some bs) : asmLine (m ++ text ++ comment) = asmOp m bs := by
  have hcode : (m ++ text ++ comment).takeWhile (fun c => c != ';') = m ++ text := by
    have hkept : ∀ c ∈ m ++ text, (c != ';') = true := fun c hc =>
      bne_iff_ne.mpr ((List.mem_append.mp hc).elim (fun hc => (hplain c hc).2) (htext c))
    obtain ⟨hdropped, -⟩ := takeWhile_dropWhile_of_head (p := fun c => c != ';') (l := comment)
      fun c hc => by simp [hcomment c hc]
    rw [List.takeWhile_append_of_pos hkept, hdropped, List.append_nil]
  have hstart : (m ++ text).dropWhile isBlank = m ++ text := by
    obtain ⟨c, cs, rfl⟩ := List.exists_cons_of_ne_nil hm
    exact (takeWhile_dropWhile_of_head fun d hd => by cases hd; exact (hplain c List.mem_cons_self).1).2
  have hplain' : ∀ c ∈ m, (!isBlank c) = true := fun c hc => by simp [hplain c hc]
  obtain ⟨htake, hdrop⟩ := takeWhile_dropWhile_of_head (p := fun c => !isBlank c) (l := text)
    fun c hc => by simp [hblank c hc]
  have hmnemonic : (m ++ text).takeWhile (fun c => !isBlank c) = m := by
    rw [List.takeWhile_append_of_pos hplain', htake, List.append_nil]
  have hrest : (m ++ text).dropWhile (fun c => !isBlank c) = text := by
    rw [List.dropWhile_append_of_pos hplain', hdrop]
  simp only [asmLine, hcode, hstart, hmnemonic, hrest, if_neg hm, hfield]

end Sys2Proof.Machine

/-! ## The obligation of 30_encoding.md on the assembler's text -/

namespace Sys2Proof.Proofs

open Sys2Proof.Machine

/-- Settles O5: the printed line is a mnemonic, the text of its operands and, in the second clause, a comment behind a
blank. -/
theorem assemblerReadsPrintedOp : Obligations.AssemblerReadsPrintedOp := by
  intro i comment
  obtain ⟨hm, hplain⟩ := mnemonic_plain i
  have hparts {blanks tail : List Char} (hblanks : blanks = [] ∨ blanks = [' ']) (htail : ∀ c ∈ tail.head?, c = ';') :
      asmLine (mnemonic i ++ ((operandList i).flatMap printOperand ++ blanks) ++ tail) = .ops [i] := by
    obtain ⟨htext, hblank⟩ := operandText_plain i hblanks
    rw [asmLine_of_parts hm hplain htext hblank htail (operandField?_operandList i hblanks), asmOp_mnemonic]
  rw [printInstr_eq]
  refine ⟨?_, ?_⟩
  · simpa using hparts (blanks := []) (tail := []) (.inl rfl) nofun
  · simpa using hparts (blanks := [' ']) (tail := ';' :: comment) (.inr rfl) (by simp)

end Sys2Proof.Proofs
